-- ==== Sys2Proof/Word.lean ====
section
/-! DEFINITION. The plain data every other file speaks of: a byte, a 16-bit number, a hardware address
and an IPv4 address (spec/00_scope.md R14, spec/10_state.md R22). -/

namespace Sys2Proof

/-- A byte, `0..255` (R14). -/
abbrev Byte := BitVec 8

/-- A 16-bit number: `ILEN`, `OLEN`, `CKSUM`, the ARP tags, an EtherType (R20). -/
abbrev Word := BitVec 16

/-- A HardwareAddress: "6 raw bytes", `b0` first on the wire (R16, R22). It has no numeric value and
no byte order of its own. -/
structure HwAddr where
  b0 : Byte
  b1 : Byte
  b2 : Byte
  b3 : Byte
  b4 : Byte
  b5 : Byte
  deriving DecidableEq, Repr

/-- An IPv4 address: 4 bytes, `b0` first on the wire (R22). -/
structure IpAddr where
  b0 : Byte
  b1 : Byte
  b2 : Byte
  b3 : Byte
  deriving DecidableEq, Repr

end Sys2Proof
end

