-- ==== Sys2Proof/Syntax.lean ====
section
/-! DEFINITION. The commands: one constructor per row of spec/opcode_table.json
(spec/30_encoding.md R72). No command has an operand field: every operand is implicit (R70, R71). -/

namespace Sys2Proof

/-- The six commands of the block (R72). -/
inductive Instr where
  /-- `MAGIC`, opcode 0x01: magic packet of `TGT` (R121). -/
  | magic
  /-- `MAGICS`, opcode 0x02: parse the string in `IBUF` into `TGT`, then as `MAGIC` (R124). -/
  | magics
  /-- `ARPREQ`, opcode 0x03: the ARP probe frame (R130). -/
  | arpreq
  /-- `ICMPREQ`, opcode 0x04: the ICMP echo probe frame (R140). -/
  | icmpreq
  /-- `CKSUM`, opcode 0x05: Internet checksum of `IBUF[0 .. ILEN)` (R112). -/
  | cksum
  /-- `CLASSIFY`, opcode 0x06: classify the frame in `IBUF[0 .. ILEN)` (R150). -/
  | classify
  deriving DecidableEq, Repr

end Sys2Proof
end

