-- ==== Sys2Proof/Decode.lean ====
section
/-! DEFINITION. The command encoding of spec/30_encoding.md Part A (R70 to R74): the opcode map as a
table of mask and pattern, the decoder, total on all 256 values, and the encoder. -/

namespace Sys2Proof

/-- A row of the opcode map (R72): the command whose byte `c` has `c & mask = pattern`. -/
structure OpcodeRow where
  pattern : Byte
  mask : Byte
  instr : Instr
  deriving DecidableEq, Repr

/-- Why a byte is no command (R74). -/
inductive DecodeRefusal where
  /-- One of the 250 illegal codes, `0x00` and `0x07` to `0xFF`. -/
  | illegalCommand (code : Byte)
  deriving DecidableEq, Repr

/-- The opcode map (R72). "The mask is `0xFF` for all". -/
def opcodeMap : List OpcodeRow :=
  [ ⟨0x01, 0xFF, .magic⟩,
    ⟨0x02, 0xFF, .magics⟩,
    ⟨0x03, 0xFF, .arpreq⟩,
    ⟨0x04, 0xFF, .icmpreq⟩,
    ⟨0x05, 0xFF, .cksum⟩,
    ⟨0x06, 0xFF, .classify⟩ ]

/-- Whether a byte is a row's command. -/
def OpcodeRow.selects (r : OpcodeRow) (c : Byte) : Bool := (c &&& r.mask) == r.pattern

/-- The decoder (R73): the command of a written byte, or the refusal of an illegal code. -/
def decode (c : Byte) : Except DecodeRefusal Instr :=
  match opcodeMap.find? (·.selects c) with
  | some r => .ok r.instr
  | none => .error (.illegalCommand c)

/-- The decoder on the bytes of a stream: a command is always one byte (R70). -/
def decodeBytes : List Byte → Option (Except DecodeRefusal Instr × List Byte)
  | [] => none
  | c :: rest => some (decode c, rest)

/-- The byte of a command (R72). -/
def encode : Instr → Byte
  | .magic => 0x01
  | .magics => 0x02
  | .arpreq => 0x03
  | .icmpreq => 0x04
  | .cksum => 0x05
  | .classify => 0x06

/-- The bytes of a number of `nbits` bits, the first word first, one byte at least: with bytes as
words, bits 7..0 are the first byte. -/
def bytesOfTableWord (nbits w : Nat) : List Byte :=
  (List.range (max 1 ((nbits + 7) / 8))).map fun i => BitVec.ofNat 8 (w % 2 ^ nbits / 256 ^ i)

/-- The command the decoder reads from an instruction whose bits are `w`, numbered as
spec/opcode_table.json numbers them; none where the decoder refuses. -/
def decodeTableWord (nbits w : Nat) : Option Instr :=
  match decodeBytes (bytesOfTableWord nbits w) with
  | some (.ok i, _) => some i
  | _ => none

/-! Every constructor's word, written out from R72, decodes to it. -/

theorem decode_magic : decode 0x01 = .ok .magic := rfl
theorem decode_magics : decode 0x02 = .ok .magics := rfl
theorem decode_arpreq : decode 0x03 = .ok .arpreq := rfl
theorem decode_icmpreq : decode 0x04 = .ok .icmpreq := rfl
theorem decode_cksum : decode 0x05 = .ok .cksum := rfl
theorem decode_classify : decode 0x06 = .ok .classify := rfl

/-- No two rows select one byte: decoding is unambiguous. -/
theorem opcodeMap_no_overlap :
    opcodeMap.Pairwise (fun r q => ∀ c : Byte, ¬(r.selects c = true ∧ q.selects c = true)) := by
  decide

end Sys2Proof
end

