-- ==== Sys2Proof/Config.lean ====
section
/-! DEFINITION. What one instance of the block fixes (the parameters of spec/00_scope.md R5 to R9) and
the free values the spec leaves unspecified (spec/93_implementation_defined.md U1, U2). Each is an
opaque constant: no proof can see what it is, so a claim holds whatever it is. -/

namespace Sys2Proof

/-- The record of implementation parameters (R5 to R9). Configuration, not state (R34). The functions
that build frames take it as an argument; the machine runs them on `Config.params`. -/
structure Params where
  /-- `IBUF_SIZE`, the capacity of the input buffer (R5). -/
  ibufSize : Nat
  /-- `OBUF_SIZE`, the capacity of the output buffer (R6). -/
  obufSize : Nat
  /-- `IP_TTL` (R7). -/
  ipTtl : Byte
  /-- `IP_FLAGS`, 3 bits (R8). -/
  ipFlags : BitVec 3
  /-- `ICMP_DATA`, any bytes (R9). -/
  icmpData : List Byte
  deriving DecidableEq, Repr

namespace Config

/-- How far `IBUF_SIZE` lies above its lower bound 42 (R5): at most 65535 - 42. -/
opaque ibufSlack : Fin 65494

/-- How far `OBUF_SIZE` lies above its lower bound 102 (R6): at most 65535 - 102. -/
opaque obufSlack : Fin 65434

/-- `len(ICMP_DATA)` (R9), before it is cut to what fits `OBUF`. -/
opaque icmpLenWanted : Nat

/-- The bytes of `ICMP_DATA`, by index (R9). -/
opaque icmpByte : Nat → Byte

/-- `IP_TTL` (R7). -/
opaque ipTtl : Byte

/-- `IP_FLAGS` (R8). -/
opaque ipFlags : BitVec 3

/-- FREE VALUE (U2): what the byte of `IBUF` at an offset holds after the given reset until the host
writes it; "a draw fixed at reset". Arguments: the count of resets, the offset. Log entry 4. -/
opaque ibufUnwritten : Nat → Nat → Byte

/-- FREE VALUE (U1): what a read of an unspecified byte of `OBUF` returns; "a draw on each read".
Argument: the count of such reads so far. Log entry 5. -/
opaque obufUnspecified : Nat → Byte

/-- `IBUF_SIZE`, any value of `42..65535` (R5). -/
def ibufSize : Nat := ibufSlack.val + 42

/-- `OBUF_SIZE`, any value of `102..65535` (R6). -/
def obufSize : Nat := obufSlack.val + 102

/-- `len(ICMP_DATA)`, any value of `0..OBUF_SIZE - 42` (R9, R6). -/
def icmpLen : Nat := min icmpLenWanted (obufSize - 42)

/-- `ICMP_DATA` as a byte sequence (R9). -/
def icmpData : List Byte := (List.range icmpLen).map icmpByte

/-- The parameters of this instance: every choice that R5 to R9 allow and no other. Log entry 6. -/
def params : Params where
  ibufSize := ibufSize
  obufSize := obufSize
  ipTtl := ipTtl
  ipFlags := ipFlags
  icmpData := icmpData

end Config
end Sys2Proof
end

