-- ==== Sys2Proof/Machine/State.lean ====
section
/-! DEFINITION. The state of the machine as plain data: the 21 registers and the two buffers of
spec/10_state.md (R20, R28, R29), the host's transactions to come and the values its reads returned
(spec/00_scope.md R11, R13), and the two counters that draw free values. With it the names the machine
speaks of: registers, transactions, errors, faults and refusals. -/

namespace Sys2Proof.Machine

/-! ### Names -/

/-- The 21 registers of the register space `REG` (R20), in the order of their numbers. -/
inductive Reg where
  | cmd
  | status
  | tgt
  | lhw
  | lip
  | ilen
  | olen
  | cksum
  | ckfold
  | matchKind
  | aHtype
  | aPtype
  | aHlen
  | aPlen
  | aOper
  | aSha
  | aSpa
  | aTha
  | aTpa
  | rIcmpType
  | rSrcHw
  deriving DecidableEq, Repr

/-- The host's access to a register (R20). -/
inductive Access where
  | readOnly
  | writeOnly
  | readWrite
  deriving DecidableEq, Repr

/-- The kind and width of a register (R20): a number of 8 or 16 bits, a sequence of 6 or 4 bytes. -/
inductive Width where
  | byte
  | word
  | six
  | four
  deriving DecidableEq, Repr

/-- A whole register's value (R35: registers are accessed whole; R75: the forms of a value). -/
inductive RegValue where
  /-- A number of 8 bits. -/
  | byte (v : Byte)
  /-- A number of 16 bits. -/
  | word (v : Word)
  /-- A sequence of 6 bytes. -/
  | six (v : HwAddr)
  /-- A sequence of 4 bytes. -/
  | four (v : IpAddr)
  deriving DecidableEq, Repr

/-- The two byte-addressed spaces (R50). -/
inductive Buffer where
  | ibuf
  | obuf
  deriving DecidableEq, Repr

/-- One transaction between the outside and the block (R11, R51, R76), and the platform's reset
(R190). A step of the machine is one of these. -/
inductive Transaction where
  /-- `(W, regno, value)`: write of a whole register. A write to register 0 runs a command. -/
  | writeReg (number : Nat) (value : RegValue)
  /-- `(R, regno)`: read of a whole register. -/
  | readReg (number : Nat)
  /-- `(WI, offset, byte)`: `HostWriteIn`. -/
  | writeIn (offset : Nat) (value : Byte)
  /-- `HostReadIn`. -/
  | readIn (offset : Nat)
  /-- A host write to `OBUF`, which is ignored (R51). -/
  | writeOut (offset : Nat) (value : Byte)
  /-- `(RO, offset)`: `HostReadOut`. -/
  | readOut (offset : Nat)
  /-- The platform's reset, between two host transactions (R190). -/
  | reset
  deriving DecidableEq, Repr

/-- A value a host read returned, with where it was read (R75: "the value read is part of the
observation"). -/
inductive Reading where
  | reg (number : Nat) (value : RegValue)
  | inByte (offset : Nat) (value : Byte)
  | outByte (offset : Nat) (value : Byte)
  deriving DecidableEq, Repr

/-- The errors a write to `CMD` can end in (R171). They are reported in `STATUS` and stop nothing. -/
inductive CmdError where
  /-- ParseFailure: a segment of the address string is not valid hexadecimal (R172). -/
  | parseFailure
  /-- InvalidAddressLength: the segments are valid and not six (R173). -/
  | invalidAddressLength
  /-- IllegalCmd: the byte written to `CMD` is no command code (R174). -/
  | illegalCmd
  deriving DecidableEq, Repr

/-- The values of `STATUS.CODE` (R24). Codes 5, 6 and 7 are never produced (U8). -/
inductive StatusCode where
  | idle
  | ok
  | parseFailure
  | invalidAddressLength
  | illegalCmd
  deriving DecidableEq, Repr

/-- The values of `MATCH.KIND` (R31). Kind 3 is never produced (U8). -/
inductive MatchKind where
  | none
  | arp
  | icmp
  deriving DecidableEq, Repr

/-- An ArpMessage: the nine fields of R82. -/
structure ArpMessage where
  htype : Word
  ptype : Word
  hlen : Byte
  plen : Byte
  oper : Word
  sha : HwAddr
  spa : IpAddr
  tha : HwAddr
  tpa : IpAddr
  deriving DecidableEq, Repr

/-- What `Classify` returns (R151). -/
inductive Verdict where
  /-- "not a match", which is no error (R175). -/
  | none
  /-- An Ethernet frame carrying an ARP message. -/
  | arp (m : ArpMessage)
  /-- Ethernet, IPv4, ICMP: the ICMP type byte and the frame's source address. -/
  | icmp (icmpType : Byte) (source : HwAddr)
  deriving DecidableEq, Repr

/-! ### Stops -/

/-- The machine has no fault: no trap, no halt, no stuck state. An error is a value of `STATUS.CODE`
and the block is ready for the next command (R170, R178 to R180), so this type has no constructor and
no step can end in one. Nobody raises a fault. Log entry 19. -/
inductive Fault
  deriving DecidableEq, Repr

/-- Why a transaction has no meaning. No command is refused: these are host accesses to which the
spec gives no meaning. -/
inductive Refusal where
  /-- Raised by nothing: every command of the table has its meaning. It is the name for a command
  that had none. Safe. -/
  | notModelled (mnemonic : String)
  /-- Raised by a register read or write whose number is above 20 (R35; U4: "the spec gives it no
  meaning"). Safe: the model stops where a block may go on. -/
  | registerNumberAbove20 (number : Nat)
  /-- Raised by a host access to a buffer at or above its size: "outside the space: the access has no
  meaning" (R51; U4). Safe. -/
  | offsetOutsideBuffer (buffer : Buffer) (offset : Nat)
  /-- Raised by a write to a writable register of a value of another kind or width than the
  register's (R35: registers are accessed whole). DESIGN CHOICE, log entry 9. Safe. -/
  | valueOfOtherWidth (register : Reg) (value : RegValue)
  deriving DecidableEq, Repr

/-! ### Memory -/

/-- A buffer's contents: the bytes that hold a specified value, by offset. An offset that is not listed
holds an unspecified byte (U1, U2). -/
abbrev Memory := List Host.Cell

/-- What an offset that is not listed holds: no value of the spec's (R36: "unspecified"). The
operations that read a buffer put a free value there (log entries 4 and 5). -/
def Memory.unlisted : Option Byte := none

/-- The canonical form: offsets strictly rising. (No entry can equal `Memory.unlisted`, as an entry
always holds a byte.) -/
abbrev Memory.wf (m : Memory) : Prop := m.Pairwise (fun c d => c.1 < d.1)

/-! ### State -/

/-- The whole state. `CMD` stores nothing (R25) and has no field. -/
structure State where
  /-- Register 1, `STATUS` (R24). -/
  status : Byte
  /-- Register 2, `TGT` (R22). -/
  tgt : HwAddr
  /-- Register 3, `LHW` (R22). -/
  lhw : HwAddr
  /-- Register 4, `LIP` (R22). -/
  lip : IpAddr
  /-- Register 5, `ILEN` (R26). -/
  ilen : Word
  /-- Register 6, `OLEN` (R27). -/
  olen : Word
  /-- Register 7, `CKSUM` (R30). -/
  cksum : Word
  /-- Register 8, `CKFOLD` (R30). -/
  ckfold : Word
  /-- Register 9, `MATCH` (R31). -/
  matchReg : Byte
  /-- Register 10, `A_HTYPE` (R32). -/
  aHtype : Word
  /-- Register 11, `A_PTYPE` (R32). -/
  aPtype : Word
  /-- Register 12, `A_HLEN` (R32). -/
  aHlen : Byte
  /-- Register 13, `A_PLEN` (R32). -/
  aPlen : Byte
  /-- Register 14, `A_OPER` (R32). -/
  aOper : Word
  /-- Register 15, `A_SHA` (R32). -/
  aSha : HwAddr
  /-- Register 16, `A_SPA` (R32). -/
  aSpa : IpAddr
  /-- Register 17, `A_THA` (R32). -/
  aTha : HwAddr
  /-- Register 18, `A_TPA` (R32). -/
  aTpa : IpAddr
  /-- Register 19, `R_ICMPTYPE` (R33). -/
  rIcmpType : Byte
  /-- Register 20, `R_SRCHW` (R33). -/
  rSrcHw : HwAddr
  /-- `IBUF` (R28): the bytes written since reset. -/
  ibuf : Memory
  /-- `OBUF` (R29): the bytes of the packet last built. -/
  obuf : Memory
  /-- The host's transactions to come, the next one first (R11, R13). -/
  pending : List Transaction
  /-- The values the host's reads returned, the oldest first (R13, R75). -/
  observed : List Reading
  /-- The model's own counter of resets: fixes the free value of `IBUF` (U2). Log entry 4. -/
  resets : Nat
  /-- The model's own counter of reads of unspecified bytes of `OBUF` (U1). Log entry 5. -/
  draws : Nat
  deriving DecidableEq, Repr

/-- A hardware address of zeros, `00:00:00:00:00:00`. -/
def zeroHw : HwAddr := ⟨0, 0, 0, 0, 0, 0⟩

/-- The IPv4 address `0.0.0.0`. -/
def zeroIp : IpAddr := ⟨0, 0, 0, 0⟩

/-- The machine right after reset (R36, R190): every register zero, both buffers unspecified. The
host has no transaction pending and has read nothing; the model's counters start at 0 (DESIGN CHOICE,
log entries 1 to 5). -/
def State.reset : State where
  status := 0
  tgt := zeroHw
  lhw := zeroHw
  lip := zeroIp
  ilen := 0
  olen := 0
  cksum := 0
  ckfold := 0
  matchReg := 0
  aHtype := 0
  aPtype := 0
  aHlen := 0
  aPlen := 0
  aOper := 0
  aSha := zeroHw
  aSpa := zeroIp
  aTha := zeroHw
  aTpa := zeroIp
  rIcmpType := 0
  rSrcHw := zeroHw
  ibuf := []
  obuf := []
  pending := []
  observed := []
  resets := 0
  draws := 0

end Sys2Proof.Machine
end

