-- ==== Sys2Proof/Machine/Flags.lean ====
section
/-! DEFINITION. The block's only flags: the code a command leaves in `STATUS` (spec/10_state.md R24) and
the verdict `CLASSIFY` leaves in `MATCH` (R31). Writing a field writes the whole register: the other
bits read as zero. -/

namespace Sys2Proof.Machine

/-- `STATUS` with the code in bits `[2:0]` and zero above (R24). -/
def statusBits : StatusCode → Byte
  | .idle => 0
  | .ok => 1
  | .parseFailure => 2
  | .invalidAddressLength => 3
  | .illegalCmd => 4

/-- `MATCH` with the kind in bits `[1:0]` and zero above (R31). -/
def matchBits : MatchKind → Byte
  | .none => 0
  | .arp => 1
  | .icmp => 2

/-- The code an error is reported with (R171). -/
def errorCode : CmdError → StatusCode
  | .parseFailure => .parseFailure
  | .invalidAddressLength => .invalidAddressLength
  | .illegalCmd => .illegalCmd

/-- The kind of a verdict (R31, R150). -/
def verdictKind : Verdict → MatchKind
  | .none => .none
  | .arp _ => .arp
  | .icmp _ _ => .icmp

/-- `STATUS.CODE <- code` (R24). -/
def State.setStatus (s : State) (c : StatusCode) : State := { s with status := statusBits c }

/-- `MATCH.KIND <- kind` (R31). -/
def State.setMatch (s : State) (k : MatchKind) : State := { s with matchReg := matchBits k }

end Sys2Proof.Machine
end

