-- ==== Sys2Proof/Machine/Operands.lean ====
section
/-! DEFINITION. Byte order and operand forms: the constants of spec/00_scope.md R10, `BE16` and `be16`
(R14, R55), addresses as bytes (spec/20_memory.md R53), and the register space of spec/10_state.md
(R20): numbers, access, widths and the value a read returns (R24, R25, R31, R35). -/

namespace Sys2Proof.Machine

/-! ### Constants (R10) -/

/-- `ETHERTYPE_IPV4`. -/
def etherTypeIpv4 : Word := 0x0800
/-- `ETHERTYPE_ARP`. -/
def etherTypeArp : Word := 0x0806
/-- `ARP_HTYPE_ETHERNET`. -/
def arpHtypeEthernet : Word := 1
/-- `ARP_PTYPE_IPV4`. -/
def arpPtypeIpv4 : Word := 0x0800
/-- `ARP_HLEN`. -/
def arpHlen : Byte := 6
/-- `ARP_PLEN`. -/
def arpPlen : Byte := 4
/-- `ARP_OP_REQUEST`. -/
def arpOpRequest : Word := 1
/-- `IPPROTO_ICMP`. -/
def ipProtoIcmp : Byte := 1
/-- `ICMP_ECHO_REQUEST`, the type. -/
def icmpEchoRequest : Byte := 8
/-- `HW_BROADCAST` (D13). -/
def hwBroadcast : HwAddr := ⟨0xFF, 0xFF, 0xFF, 0xFF, 0xFF, 0xFF⟩
/-- `IPV4_BROADCAST`. -/
def ipv4Broadcast : IpAddr := ⟨0xFF, 0xFF, 0xFF, 0xFF⟩
/-- `ETH_HDR_LEN`. -/
def ethHdrLen : Nat := 14
/-- `ARP_LEN`. -/
def arpLen : Nat := 28
/-- `IPV4_HDR_LEN`. -/
def ipv4HdrLen : Nat := 20
/-- `ICMP_ECHO_HDR_LEN`. -/
def icmpEchoHdrLen : Nat := 8
/-- `MAGIC_SYNC_LEN`. -/
def magicSyncLen : Nat := 6
/-- `MAGIC_REPS`. -/
def magicReps : Nat := 16

/-! ### Byte order (R14, R55) -/

/-- `be16(b0, b1)`, the number of two bytes, the high byte first (R14). -/
def be16 (hi lo : Byte) : Nat := hi.toNat * 256 + lo.toNat

/-- The 16-bit number of two bytes, the high byte first (R55). -/
def wordOfBytes (hi lo : Byte) : Word := BitVec.ofNat 16 (be16 hi lo)

/-- `BE16(v)`, the two bytes of a number, the high byte first (R14). -/
def bytesOfWord (v : Word) : List Byte := [v.extractLsb' 8 8, v.extractLsb' 0 8]

/-- Byte `i` of a byte sequence. Callers have checked the length; past the end it is 0. -/
def byteAt (s : List Byte) (i : Nat) : Byte := s.getD i 0

/-- The 16-bit field at offset `i` of a byte sequence. -/
def wordAt (s : List Byte) (i : Nat) : Word := wordOfBytes (byteAt s i) (byteAt s (i + 1))

/-- A hardware address as bytes, in index order (R53). -/
def hwBytes (a : HwAddr) : List Byte := [a.b0, a.b1, a.b2, a.b3, a.b4, a.b5]

/-- An IPv4 address as bytes, in index order (R53). -/
def ipBytes (a : IpAddr) : List Byte := [a.b0, a.b1, a.b2, a.b3]

/-- The hardware address at offset `i` of a byte sequence (R53: no reversal). -/
def hwAt (s : List Byte) (i : Nat) : HwAddr :=
  ⟨byteAt s i, byteAt s (i + 1), byteAt s (i + 2), byteAt s (i + 3), byteAt s (i + 4),
    byteAt s (i + 5)⟩

/-- The IPv4 address at offset `i` of a byte sequence (R53). -/
def ipAt (s : List Byte) (i : Nat) : IpAddr :=
  ⟨byteAt s i, byteAt s (i + 1), byteAt s (i + 2), byteAt s (i + 3)⟩

/-! ### The register space (R20) -/

/-- The registers in the order of their numbers, 0 to 20 (R20). -/
def allRegs : List Reg :=
  [.cmd, .status, .tgt, .lhw, .lip, .ilen, .olen, .cksum, .ckfold, .matchKind] ++
  [.aHtype, .aPtype, .aHlen, .aPlen, .aOper, .aSha, .aSpa, .aTha, .aTpa, .rIcmpType, .rSrcHw]

/-- The register of a number, none above 20 (R20, R35). -/
def regOfNumber (n : Nat) : Option Reg := allRegs[n]?

/-- A register's number (R20). -/
def regNumber : Reg → Nat
  | .cmd => 0
  | .status => 1
  | .tgt => 2
  | .lhw => 3
  | .lip => 4
  | .ilen => 5
  | .olen => 6
  | .cksum => 7
  | .ckfold => 8
  | .matchKind => 9
  | .aHtype => 10
  | .aPtype => 11
  | .aHlen => 12
  | .aPlen => 13
  | .aOper => 14
  | .aSha => 15
  | .aSpa => 16
  | .aTha => 17
  | .aTpa => 18
  | .rIcmpType => 19
  | .rSrcHw => 20

/-- The host's access to a register, the column "Access" of R20. -/
def regAccess : Reg → Access
  | .cmd => .writeOnly
  | .tgt | .lhw | .lip | .ilen => .readWrite
  | .status | .olen | .cksum | .ckfold | .matchKind | .aHtype | .aPtype | .aHlen | .aPlen
  | .aOper | .aSha | .aSpa | .aTha | .aTpa | .rIcmpType | .rSrcHw => .readOnly

/-- A register's kind and width, the column "kind and width" of R20. -/
def regWidth : Reg → Width
  | .cmd | .status | .matchKind | .aHlen | .aPlen | .rIcmpType => .byte
  | .ilen | .olen | .cksum | .ckfold | .aHtype | .aPtype | .aOper => .word
  | .tgt | .lhw | .aSha | .aTha | .rSrcHw => .six
  | .lip | .aSpa | .aTpa => .four

/-- The kind and width of a value. -/
def valueWidth : RegValue → Width
  | .byte _ => .byte
  | .word _ => .word
  | .six _ => .six
  | .four _ => .four

/-- The bits of `STATUS` that are the field `CODE`, `[2:0]`; the others read as zero (R24). -/
def statusCodeMask : Byte := 0x07

/-- The bits of `MATCH` that are the field `KIND`, `[1:0]`; the others read as zero (R31). -/
def matchKindMask : Byte := 0x03

/-- What a host read of a register returns (R35): its current value; `CMD` reads 0 (R25), and the
reserved bits of `STATUS` and `MATCH` read as zero (R24, R31; log entry 11). -/
def readRegister (s : State) : Reg → RegValue
  | .cmd => .byte 0
  | .status => .byte (s.status &&& statusCodeMask)
  | .tgt => .six s.tgt
  | .lhw => .six s.lhw
  | .lip => .four s.lip
  | .ilen => .word s.ilen
  | .olen => .word s.olen
  | .cksum => .word s.cksum
  | .ckfold => .word s.ckfold
  | .matchKind => .byte (s.matchReg &&& matchKindMask)
  | .aHtype => .word s.aHtype
  | .aPtype => .word s.aPtype
  | .aHlen => .byte s.aHlen
  | .aPlen => .byte s.aPlen
  | .aOper => .word s.aOper
  | .aSha => .six s.aSha
  | .aSpa => .four s.aSpa
  | .aTha => .six s.aTha
  | .aTpa => .four s.aTpa
  | .rIcmpType => .byte s.rIcmpType
  | .rSrcHw => .six s.rSrcHw

/-- The nine ARP registers as one ArpMessage (R32). -/
def arpRegisters (s : State) : ArpMessage :=
  ⟨s.aHtype, s.aPtype, s.aHlen, s.aPlen, s.aOper, s.aSha, s.aSpa, s.aTha, s.aTpa⟩

end Sys2Proof.Machine
end

