-- ==== Sys2Proof/Machine/Ops.lean ====
section
/-! DEFINITION. The named operations over the buffers and the registers: reading and writing a byte
(spec/20_memory.md R51), `MemRead` and `MemWrite` (spec/00_scope.md R15), the end of a command, with or
without an error (spec/60_exceptions.md R170), and the platform's reset (spec/70_reset_and_hazards.md
R190). -/

namespace Sys2Proof.Machine

/-! ### A buffer's contents -/

/-- The byte an offset of a buffer holds, `Memory.unlisted` where none is specified. -/
def Memory.read : Memory → Nat → Option Byte
  | [], _ => Memory.unlisted
  | (c, x) :: r, a => if a = c then some x else Memory.read r a

/-- `buffer[a] <- b`, in canonical form. -/
def Memory.write : Memory → Nat → Byte → Memory
  | [], a, b => [(a, b)]
  | (c, x) :: r, a, b =>
    if a < c then (a, b) :: (c, x) :: r
    else if a = c then (a, b) :: r
    else (c, x) :: Memory.write r a b

/-- The contents that hold exactly the given bytes from offset `a` on, every other byte
unspecified. -/
def Memory.ofBytes (a : Nat) : List Byte → Memory
  | [] => []
  | b :: r => (a, b) :: Memory.ofBytes (a + 1) r

/-! ### The input buffer (R28, R51) -/

/-- `IBUF[a]`: the byte the host wrote, or the free value it has held since reset (U2). -/
def State.inByte (s : State) (a : Nat) : Byte :=
  (s.ibuf.read a).getD (Config.ibufUnwritten s.resets a)

/-- `MemRead(IBUF:0, ILEN)`: the bytes `IBUF[0 .. ILEN)`, all a command ever reads of it (R28). -/
def State.input (s : State) : List Byte := (List.range s.ilen.toNat).map s.inByte

/-- The state with other contents of `IBUF`. -/
def State.setIbuf (s : State) (m : Memory) : State := { s with ibuf := m }

/-! ### The output buffer (R29, R51) -/

/-- `OBUF[a]` where it is specified, that is below `OLEN`; none where it is unspecified (U1). -/
def State.outByte (s : State) (a : Nat) : Option Byte :=
  if a < s.olen.toNat then s.obuf.read a else Memory.unlisted

/-- `OBUF[0 .. OLEN)`, the packet (R29). -/
def State.packet (s : State) : List (Option Byte) := (List.range s.olen.toNat).map s.outByte

/-- `MemWrite(OBUF:0, len(f), f)` and `OLEN <- len(f)`: a build command leaves the frame `f`, and
every byte at or above the new `OLEN` unspecified (R29, U1). -/
def State.setPacket (s : State) (f : List Byte) : State :=
  { s with obuf := Memory.ofBytes 0 f, olen := BitVec.ofNat 16 f.length }

/-! ### The registers -/

/-- `TGT <- a` (R22). -/
def State.setTgt (s : State) (a : HwAddr) : State := { s with tgt := a }

/-- `LHW <- a` (R22). -/
def State.setLhw (s : State) (a : HwAddr) : State := { s with lhw := a }

/-- `LIP <- a` (R22). -/
def State.setLip (s : State) (a : IpAddr) : State := { s with lip := a }

/-- `ILEN <- n` (R26), for an `n` the caller has checked. -/
def State.setIlen (s : State) (n : Word) : State := { s with ilen := n }

/-- `CKFOLD <- f` and `CKSUM <- (~f) & 0xFFFF` (R30, R112). -/
def State.setSums (s : State) (f : Word) : State := { s with ckfold := f, cksum := ~~~f }

/-- The nine ARP registers take one ArpMessage (R32, R150). -/
def State.setArp (s : State) (m : ArpMessage) : State :=
  { s with
    aHtype := m.htype, aPtype := m.ptype, aHlen := m.hlen, aPlen := m.plen, aOper := m.oper,
    aSha := m.sha, aSpa := m.spa, aTha := m.tha, aTpa := m.tpa }

/-- `R_ICMPTYPE <- t` and `R_SRCHW <- src` (R33, R150). -/
def State.setIcmp (s : State) (t : Byte) (src : HwAddr) : State :=
  { s with rIcmpType := t, rSrcHw := src }

/-! ### The host's side (R11, R13, R75) -/

/-- The state with other transactions to come. -/
def State.setPending (s : State) (ts : List Transaction) : State := { s with pending := ts }

/-- A host read returns a value (R75); it has no other effect (R35, R51). -/
def State.observe (s : State) (r : Reading) : State := { s with observed := s.observed ++ [r] }

/-- One more free value of `OBUF` has been drawn (U1). -/
def State.countDraw (s : State) : State := { s with draws := s.draws + 1 }

/-! ### How a command ends (R12, R15, R170) -/

/-- A command that completes: `STATUS.CODE <- OK` (R24). -/
def complete (s : State) : Host.Outcome State Fault Refusal := .next (s.setStatus .ok)

/-- `raise <Error>`: taking an error, the block's only kind of exception. `s` is the state before
the command: `STATUS.CODE` takes the error's code and nothing else is written; control goes nowhere
and nothing is saved (R15, R170, R179). There is no return from it: the next command runs normally
(R180). -/
def raise (s : State) (e : CmdError) : Host.Outcome State Fault Refusal :=
  .next (s.setStatus (errorCode e))

/-! ### Reset (R36, R190) -/

/-- The platform's reset: every register at its reset value, both buffers unspecified anew. The
host's transactions and what it has read are outside the block and stay; the parameters are no state
(R191). Log entry 13. -/
def State.platformReset (s : State) : State :=
  { State.reset with
    pending := s.pending, observed := s.observed, resets := s.resets + 1, draws := s.draws }

end Sys2Proof.Machine
end

