-- ==== Sys2Proof/Machine/Checksum.lean ====
section
/-! DEFINITION. The Internet checksum unit (spec/40_checksum.md R110, R111) and the command `CKSUM`
(R112). -/

namespace Sys2Proof.Machine

/-- The zero byte that completes an odd length (R110). -/
def completeOdd (s : List Byte) : List Byte := if s.length % 2 = 1 then s ++ [0x00] else s

/-- The unbounded sum of the 16-bit words of a sequence of even length, high byte first (R110). -/
def wordSum : List Byte → Nat
  | hi :: lo :: r => be16 hi lo + wordSum r
  | _ => 0

/-- The end-around carry: the bits above bit 15 are added back until none remain (R110). Each turn
makes the number smaller, so as many turns as the number are always enough (log entry 20). -/
def foldCarry : Nat → Nat → Nat
  | 0, t => t
  | fuel + 1, t => if 0xFFFF < t then foldCarry fuel (t % 0x10000 + t / 0x10000) else t

/-- `Fold(s)` as a natural number (R110). -/
def foldNat (s : List Byte) : Nat :=
  let t := wordSum (completeOdd s)
  foldCarry t t

/-- `Fold(s)`, the folded ones-complement sum (R110). -/
def fold (s : List Byte) : Word := BitVec.ofNat 16 (foldNat s)

/-- `Cksum(s) = (~Fold(s)) & 0xFFFF` (R111). -/
def cksum (s : List Byte) : Word := ~~~(fold s)

/-- `CKSUM` (R112): the Internet checksum of `IBUF[0 .. ILEN)`. -/
def execCksum (s : State) : Host.Outcome State Fault Refusal := complete (s.setSums (fold s.input))

end Sys2Proof.Machine
end

