-- ==== Sys2Proof/Machine/Wire.lean ====
section
/-! DEFINITION. The wire formats of spec/30_encoding.md Part B (R80 to R90), building and parsing: the
Ethernet frame, the ARP message, the IPv4 header, the ICMP echo message, the magic packet, and the
parse direction of spec/44_classify.md (R151 to R157). All are pure functions (R15). -/

namespace Sys2Proof.Machine

/-! ### Building -/

/-- `EthEncode(dst, src, type, payload)` (R80). -/
def ethEncode (dst src : HwAddr) (type : Word) (payload : List Byte) : List Byte :=
  hwBytes dst ++ hwBytes src ++ bytesOfWord type ++ payload

/-- `ArpEncode(m)` (R82). -/
def arpEncode (m : ArpMessage) : List Byte :=
  bytesOfWord m.htype ++ bytesOfWord m.ptype ++ [m.hlen, m.plen] ++ bytesOfWord m.oper ++
    hwBytes m.sha ++ ipBytes m.spa ++ hwBytes m.tha ++ ipBytes m.tpa

/-- The 20 bytes of an IPv4 header with the given header checksum (R84). -/
def ipv4HeaderWith (p : Params) (src dst : IpAddr) (payloadLen : Nat) (sum : Word) : List Byte :=
  [0x45, 0x00] ++ bytesOfWord (BitVec.ofNat 16 (ipv4HdrLen + payloadLen)) ++ [0x00, 0x00] ++
    bytesOfWord (BitVec.ofNat 16 (p.ipFlags.toNat * 8192)) ++ [p.ipTtl, ipProtoIcmp] ++
    bytesOfWord sum ++ ipBytes src ++ ipBytes dst

/-- `Ipv4Header(src, dst, payload_len)` (R85): the checksum covers the header with the checksum field
zero (R89). -/
def ipv4Header (p : Params) (src dst : IpAddr) (payloadLen : Nat) : List Byte :=
  ipv4HeaderWith p src dst payloadLen (cksum (ipv4HeaderWith p src dst payloadLen 0))

/-- The bytes of an ICMP echo message with the given checksum (R86). -/
def icmpEchoWith (type code : Byte) (ident seq : Word) (data : List Byte) (sum : Word) : List Byte :=
  [type, code] ++ bytesOfWord sum ++ bytesOfWord ident ++ bytesOfWord seq ++ data

/-- `IcmpEcho(type, code, ident, seq, data)` (R86): the checksum covers the whole message with the
checksum field zero (R89). -/
def icmpEcho (type code : Byte) (ident seq : Word) (data : List Byte) : List Byte :=
  icmpEchoWith type code ident seq data (cksum (icmpEchoWith type code ident seq data 0))

/-- `rep(s, n)`, `s` repeated `n` times (R14). -/
def rep (s : List Byte) : Nat → List Byte
  | 0 => []
  | n + 1 => s ++ rep s n

/-- `Magic(m)`, the 102 bytes of a magic packet (R87). -/
def magicPacket (m : HwAddr) : List Byte := rep [0xFF] magicSyncLen ++ rep (hwBytes m) magicReps

/-- The ArpMessage of the ARP probe (R130). -/
def arpProbeMessage (tgt lhw : HwAddr) (lip : IpAddr) : ArpMessage where
  htype := arpHtypeEthernet
  ptype := arpPtypeIpv4
  hlen := arpHlen
  plen := arpPlen
  oper := arpOpRequest
  sha := lhw
  spa := lip
  tha := tgt
  tpa := ipv4Broadcast

/-- The ARP probe frame (R130, R131): broadcast, 42 bytes. -/
def arpProbe (tgt lhw : HwAddr) (lip : IpAddr) : List Byte :=
  ethEncode hwBroadcast lhw etherTypeArp (arpEncode (arpProbeMessage tgt lhw lip))

/-- The ICMP message of the ICMP probe (R140, R143). -/
def icmpProbeMessage (p : Params) : List Byte := icmpEcho icmpEchoRequest 0 0 0 p.icmpData

/-- The ICMP probe frame (R140, R141): the Ethernet destination is `TGT` (R142). -/
def icmpProbe (p : Params) (tgt lhw : HwAddr) (lip : IpAddr) : List Byte :=
  let icmp := icmpProbeMessage p
  ethEncode tgt lhw etherTypeIpv4 (ipv4Header p lip ipv4Broadcast icmp.length ++ icmp)

/-! ### Parsing -/

/-- `ArpDecode(p)` (R153): at least 28 bytes and the two address lengths; nothing else is checked. -/
def arpDecode (p : List Byte) : Option ArpMessage :=
  if p.length < arpLen then none
  else if byteAt p 4 ≠ arpHlen ∨ byteAt p 5 ≠ arpPlen then none
  else
    some
      { htype := wordAt p 0, ptype := wordAt p 2, hlen := byteAt p 4, plen := byteAt p 5,
        oper := wordAt p 6, sha := hwAt p 8, spa := ipAt p 14, tha := hwAt p 18, tpa := ipAt p 24 }

/-- The version field of an IPv4 header, bits `[7:4]` of its first byte (R56). -/
def ipVersion (p : List Byte) : Nat := (byteAt p 0).toNat / 16

/-- The header length field of an IPv4 header, in 32-bit words: bits `[3:0]` of its first byte (R56). -/
def ipHeaderWords (p : List Byte) : Nat := (byteAt p 0).toNat % 16

/-- `Ipv4IcmpType(p)` (R155): the ICMP type byte of an IPv4 datagram, or none. -/
def ipv4IcmpType (p : List Byte) : Option Byte :=
  if p.length < ipv4HdrLen then none
  else if ipVersion p ≠ 4 then none
  else if ipHeaderWords p < 5 then none
  else if byteAt p 9 ≠ ipProtoIcmp then none
  else if p.length < 4 * ipHeaderWords p + icmpEchoHdrLen then none
  else some (byteAt p (4 * ipHeaderWords p))

/-- `Classify(b)` (R151): pure and total; anything that fails a check is "not a match" (R157). -/
def classifyFrame (b : List Byte) : Verdict :=
  if b.length < ethHdrLen then .none
  else if wordAt b 12 = etherTypeArp then
    match arpDecode (b.drop ethHdrLen) with
    | none => .none
    | some m => .arp m
  else if wordAt b 12 = etherTypeIpv4 then
    match ipv4IcmpType (b.drop ethHdrLen) with
    | none => .none
    | some t => .icmp t (hwAt b 6)
  else .none

end Sys2Proof.Machine
end

