-- ==== Sys2Proof/Machine/Classify.lean ====
section
/-! DEFINITION. The parse direction: `CLASSIFY` (spec/44_classify.md R150). -/

namespace Sys2Proof.Machine

/-- The report registers a verdict writes (R150): nine on an ARP match, two on an ICMP match, none
otherwise; the others keep their values (R32, R33). -/
def State.setReport (s : State) : Verdict → State
  | .none => s
  | .arp m => s.setArp m
  | .icmp t src => s.setIcmp t src

/-- `CLASSIFY` (R150): the verdict on the frame in `IBUF[0 .. ILEN)`. -/
def execClassify (s : State) : Host.Outcome State Fault Refusal :=
  let v := classifyFrame s.input
  complete ((s.setReport v).setMatch (verdictKind v))

end Sys2Proof.Machine
end

