-- ==== Sys2Proof/Machine/AddressString.lean ====
section
/-! DEFINITION. The address string of spec/41_magic.md: splitting at colons (R122), hexadecimal segments
(R123), and the two failures of parsing with their priority (R124, R125). -/

namespace Sys2Proof.Machine

/-- The character code of the colon (R122). -/
def colon : Byte := 0x3A

/-- The segments of a string, the characters of the current segment so far given in order (R122). -/
def splitFrom (cur : List Byte) : List Byte → List (List Byte)
  | [] => [cur]
  | c :: r => if c = colon then cur :: splitFrom [] r else splitFrom (cur ++ [c]) r

/-- `Split(s)` (R122): every colon separates, and a segment may be empty. -/
def splitColons (s : List Byte) : List (List Byte) := splitFrom [] s

/-- `HexDigit(c)` (R123): the value of a hexadecimal digit of either case. -/
def hexDigit (c : Byte) : Option Nat :=
  if 0x30 ≤ c.toNat ∧ c.toNat ≤ 0x39 then some (c.toNat - 0x30)
  else if 0x41 ≤ c.toNat ∧ c.toNat ≤ 0x46 then some (c.toNat - 0x41 + 10)
  else if 0x61 ≤ c.toNat ∧ c.toNat ≤ 0x66 then some (c.toNat - 0x61 + 10)
  else none

/-- `HexSeg(g)` (R123): the byte that one or two hexadecimal digits spell. -/
def hexSeg : List Byte → Option Byte
  | [c] =>
    match hexDigit c with
    | some d => some (BitVec.ofNat 8 d)
    | none => none
  | [c, e] =>
    match hexDigit c, hexDigit e with
    | some d1, some d0 => some (BitVec.ofNat 8 (16 * d1 + d0))
    | _, _ => none
  | _ => none

/-- The bytes of a list of segments, none when some segment is invalid (R124). -/
def hexSegs : List (List Byte) → Option (List Byte)
  | [] => some []
  | g :: r =>
    match hexSeg g, hexSegs r with
    | some b, some bs => some (b :: bs)
    | _, _ => none

/-- The address a string spells, or why it spells none (R124): all segments are converted before
they are counted, so ParseFailure wins (R125). -/
def parseAddress (s : List Byte) : Except CmdError HwAddr :=
  match hexSegs (splitColons s) with
  | none => .error .parseFailure
  | some [b0, b1, b2, b3, b4, b5] => .ok ⟨b0, b1, b2, b3, b4, b5⟩
  | some _ => .error .invalidAddressLength

end Sys2Proof.Machine
end

