-- ==== Sys2Proof/Machine/Magic.lean ====
section
/-! DEFINITION. The magic-packet builder: `MAGIC` and `MAGICS` (spec/41_magic.md R121, R124). -/

namespace Sys2Proof.Machine

/-- `MAGIC` (R121): the magic packet of `TGT` into `OBUF`. -/
def execMagic (s : State) : Host.Outcome State Fault Refusal :=
  complete (s.setPacket (magicPacket s.tgt))

/-- `MAGICS` (R124): the address string in `IBUF[0 .. ILEN)` into `TGT` and its magic packet into
`OBUF`; a failure writes `STATUS` and nothing else. -/
def execMagics (s : State) : Host.Outcome State Fault Refusal :=
  match parseAddress s.input with
  | .error e => raise s e
  | .ok m => complete ((s.setTgt m).setPacket (magicPacket m))

end Sys2Proof.Machine
end

