-- ==== Sys2Proof/Machine/Probe.lean ====
section
/-! DEFINITION. The two probes: `ARPREQ` (spec/42_arp_probe.md R130) and `ICMPREQ`
(spec/43_icmp_probe.md R140). -/

namespace Sys2Proof.Machine

/-- `ARPREQ` (R130): the 42-byte ARP probe frame into `OBUF`. -/
def execArpreq (s : State) : Host.Outcome State Fault Refusal :=
  complete (s.setPacket (arpProbe s.tgt s.lhw s.lip))

/-- `ICMPREQ` for given parameters (R140). -/
def icmpreqWith (p : Params) (s : State) : Host.Outcome State Fault Refusal :=
  complete (s.setPacket (icmpProbe p s.tgt s.lhw s.lip))

/-- `ICMPREQ` (R140): the ICMP probe frame into `OBUF`; `CKSUM` and `CKFOLD` are not written. -/
def execIcmpreq (s : State) : Host.Outcome State Fault Refusal := icmpreqWith Config.params s

end Sys2Proof.Machine
end

