-- ==== Sys2Proof/Machine/Dispatch.lean ====
section
/-! DEFINITION. One arm per command: the meaning each runs (spec/30_encoding.md R72). -/

namespace Sys2Proof.Machine

def exec (i : Instr) (s : State) : Host.Outcome State Fault Refusal :=
  match i with
  | .magic => Sys2Proof.Machine.execMagic s
  | .magics => Sys2Proof.Machine.execMagics s
  | .arpreq => Sys2Proof.Machine.execArpreq s
  | .icmpreq => Sys2Proof.Machine.execIcmpreq s
  | .cksum => Sys2Proof.Machine.execCksum s
  | .classify => Sys2Proof.Machine.execClassify s

end Sys2Proof.Machine
end

