-- ==== Sys2Proof/Machine/Transactions.lean ====
section
/-! DEFINITION. What each transaction of the host does (spec/10_state.md R25, R26, R35;
spec/20_memory.md R51), the platform's reset (spec/70_reset_and_hazards.md R190), and the observation
of a run (spec/00_scope.md R13). -/

namespace Sys2Proof.Machine

/-- A write of the byte `c` to `CMD` (R25): the command whose code it is runs to completion, or the
write is an illegal command (R74). Decode comes first (R177). -/
def runCommand (c : Byte) (s : State) : Host.Outcome State Fault Refusal :=
  match decode c with
  | .ok i => exec i s
  | .error _ => raise s .illegalCmd

/-- A write of `ILEN` for an input buffer of `size` bytes (R26): a value above the size is dropped and
nothing changes (log entry 10). -/
def writeIlenWithin (size : Nat) (n : Word) (s : State) : State :=
  if n.toNat ≤ size then s.setIlen n else s

/-- A write of `ILEN` (R26). -/
def writeIlen (n : Word) (s : State) : State := writeIlenWithin Config.params.ibufSize n s

/-- A host write of a whole register (R35): `CMD` runs a command, a writable register takes the value,
a read-only register ignores the write. -/
def writeRegister (r : Reg) (v : RegValue) (s : State) : Host.Outcome State Fault Refusal :=
  match r with
  | .cmd =>
    match v with
    | .byte c => runCommand c s
    | _ => .refused (.valueOfOtherWidth r v)
  | .tgt =>
    match v with
    | .six a => .next (s.setTgt a)
    | _ => .refused (.valueOfOtherWidth r v)
  | .lhw =>
    match v with
    | .six a => .next (s.setLhw a)
    | _ => .refused (.valueOfOtherWidth r v)
  | .lip =>
    match v with
    | .four a => .next (s.setLip a)
    | _ => .refused (.valueOfOtherWidth r v)
  | .ilen =>
    match v with
    | .word n => .next (writeIlen n s)
    | _ => .refused (.valueOfOtherWidth r v)
  | .status | .olen | .cksum | .ckfold | .matchKind | .aHtype | .aPtype | .aHlen | .aPlen
  | .aOper | .aSha | .aSpa | .aTha | .aTpa | .rIcmpType | .rSrcHw => .next s

/-- `HostReadOut(a)` (R51): the byte of the packet below `OLEN`, else a fresh free value (U1). -/
def readOutByte (a : Nat) (s : State) : State :=
  match s.outByte a with
  | some b => s.observe (.outByte a b)
  | none => (s.observe (.outByte a (Config.obufUnspecified s.draws))).countDraw

/-- One transaction, from the state in which it is the next one and no longer pending (R11, R60). -/
def perform (t : Transaction) (s : State) : Host.Outcome State Fault Refusal :=
  match t with
  | .writeReg n v =>
    match regOfNumber n with
    | some r => writeRegister r v s
    | none => .refused (.registerNumberAbove20 n)
  | .readReg n =>
    match regOfNumber n with
    | some r => .next (s.observe (.reg n (readRegister s r)))
    | none => .refused (.registerNumberAbove20 n)
  | .writeIn a b =>
    if a < Config.params.ibufSize then .next (s.setIbuf (s.ibuf.write a b))
    else .refused (.offsetOutsideBuffer .ibuf a)
  | .readIn a =>
    if a < Config.params.ibufSize then .next (s.observe (.inByte a (s.inByte a)))
    else .refused (.offsetOutsideBuffer .ibuf a)
  | .writeOut a _ =>
    if a < Config.params.obufSize then .next s
    else .refused (.offsetOutsideBuffer .obuf a)
  | .readOut a =>
    if a < Config.params.obufSize then .next (readOutByte a s)
    else .refused (.offsetOutsideBuffer .obuf a)
  | .reset => .next s.platformReset

/-- The host's next transaction, and the state with it no longer pending (R11, R13); none when the
host's sequence has ended. -/
def nextTransaction (s : State) : Option (Transaction × State) :=
  match s.pending with
  | [] => none
  | t :: rest => some (t, s.setPending rest)

/-- One step: the next transaction, completely (R11, R60). With none pending nothing changes: the
block never acts on its own (R11, R60). -/
def runNext (s : State) : Host.Outcome State Fault Refusal :=
  match nextTransaction s with
  | none => .next s
  | some (t, s') => perform t s'

/-- The transaction that issues the command whose bits are `w`: `(W, 0, w)` (R76). -/
def issueWord (nbits w : Nat) : Transaction :=
  .writeReg 0 (.byte (byteAt (bytesOfTableWord nbits w) 0))

/-- The observation of a run (R13): the final value of every register, and `OBUF[0 .. OLEN)`. -/
def finalObservation (s : State) : List RegValue × List (Option Byte) :=
  (allRegs.map (readRegister s), s.packet)

end Sys2Proof.Machine
end

