-- ==== Sys2Proof/Machine/Step.lean ====
section
/-! DEFINITION. One step of the machine: one transaction of the host (spec/00_scope.md R11). -/

namespace Sys2Proof.Machine

/-- One step. Three outcomes: a next state, a fault (which nothing raises), a refusal (a host access
that has no meaning). -/
def step (s : State) : Host.Outcome State Fault Refusal := runNext s

/-- `s` with the command whose bits are `w` as the host's next transaction, before those pending. -/
def State.withFetchWord (s : State) (nbits w : Nat) : State :=
  s.setPending (issueWord nbits w :: s.pending)

end Sys2Proof.Machine
end

