-- ==== Sys2Proof/Machine/Script.lean ====
section
/-! DEFINITION. Host programs in the spec's own notation (spec/30_encoding.md R75) and their encoding as
transactions (R76): each line, and the transactions it expands to. -/

namespace Sys2Proof.Machine

/-- A line of a host program (R75). -/
inductive Line where
  /-- `SET reg, value`. -/
  | set (r : Reg) (v : RegValue)
  /-- `GET reg`. -/
  | get (r : Reg)
  /-- A mnemonic: one write to `CMD` of its opcode. -/
  | command (i : Instr)
  /-- `CMD n`. -/
  | cmd (n : Byte)
  /-- `WRI a, b`. -/
  | wri (a : Nat) (b : Byte)
  /-- `RDO a`. -/
  | rdo (a : Nat)
  /-- `IN "text"`. -/
  | inText (text : List Char)
  /-- `INX b0 b1 ... b(n-1)`. -/
  | inBytes (bytes : List Byte)
  /-- `LOOPBACK lo, hi`. -/
  | loopback (lo hi : Nat)
  /-- `OUT`. -/
  | out
  deriving DecidableEq, Repr

/-- `SET reg, value` as a transaction: `(W, regno, value)` (R76). -/
def setLine (r : Reg) (v : RegValue) : Transaction := .writeReg (regNumber r) v

/-- `WRI i, b` for the bytes of a list, from offset `i` on. -/
def writeBytes (i : Nat) : List Byte → List Transaction
  | [] => []
  | b :: r => .writeIn i b :: writeBytes (i + 1) r

/-- `INX`: the bytes from offset 0, then `ILEN` (R75). -/
def loadBytes (bytes : List Byte) : List Transaction :=
  writeBytes 0 bytes ++ [setLine .ilen (.word (BitVec.ofNat 16 bytes.length))]

/-- `RDO i` then `WRI j` of the byte read, for `n` bytes (R75). -/
def copyBytes (s : State) (i j : Nat) : Nat → Option (List Transaction)
  | 0 => some []
  | n + 1 =>
    match s.outByte i, copyBytes s (i + 1) (j + 1) n with
    | some b, some r => some (.readOut i :: .writeIn j b :: r)
    | _, _ => none

/-- The transactions a line expands to when the block is in state `s` (R75); none where the notation
gives the line no expansion: a character that is no ASCII character, a length that is no value of
`ILEN`, a `LOOPBACK` whose needs `hi <= OLEN` and `hi-lo <= IBUF_SIZE` fail. Log entry 18. -/
def expandLine (s : State) : Line → Option (List Transaction)
  | .set r v => some [setLine r v]
  | .get r => some [.readReg (regNumber r)]
  | .command i => some [setLine .cmd (.byte (encode i))]
  | .cmd n => some [setLine .cmd (.byte n)]
  | .wri a b => some [.writeIn a b]
  | .rdo a => some [.readOut a]
  | .inText text =>
    if text.all (fun c => c.toNat < 128) ∧ text.length < 65536 then
      some (loadBytes (text.map fun c => BitVec.ofNat 8 c.toNat))
    else none
  | .inBytes bytes => if bytes.length < 65536 then some (loadBytes bytes) else none
  | .loopback lo hi =>
    if lo ≤ hi ∧ hi ≤ s.olen.toNat ∧ hi - lo ≤ Config.params.ibufSize then
      match copyBytes s lo 0 (hi - lo) with
      | some ts => some (ts ++ [setLine .ilen (.word (BitVec.ofNat 16 (hi - lo)))])
      | none => none
    else none
  | .out => some (.readReg (regNumber .olen) :: (List.range s.olen.toNat).map .readOut)

/-- The state with the transactions of a line to come next. -/
def State.withLine (s : State) (l : Line) : Option State :=
  match expandLine s l with
  | some ts => some (s.setPending (ts ++ s.pending))
  | none => none

end Sys2Proof.Machine
end

