-- ==== Sys2Proof/WellFormed.lean ====
section
/-! DEFINITION. Which terms are well formed: the parameters (spec/00_scope.md R5 to R9), a command
(spec/30_encoding.md R70), a transaction (spec/10_state.md R35, spec/20_memory.md R51). A buffer's
canonical form is `Machine.Memory.wf`. -/

namespace Sys2Proof

/-- The constraints on the parameters: `42 <= IBUF_SIZE <= 65535` (R5) and
`max(102, 42 + len(ICMP_DATA)) <= OBUF_SIZE <= 65535` (R6, R9). `IP_TTL` and `IP_FLAGS` are bounded by
their widths (R7, R8). -/
abbrev Params.wf (p : Params) : Prop :=
  (42 ≤ p.ibufSize ∧ p.ibufSize ≤ 65535) ∧
    max 102 (42 + p.icmpData.length) ≤ p.obufSize ∧ p.obufSize ≤ 65535

/-- A command has no operand field, so every command is well formed (R70, R71). -/
def Instr.wf (_ : Instr) : Bool := true

/-- A transaction to which the spec gives a meaning: a register number of 0 to 20 (R20, R35), a value
of the register's width where the register can be written (R20), an offset inside the buffer (R51). -/
def Machine.Transaction.wf (p : Params) : Machine.Transaction → Bool
  | .writeReg n v =>
    match Machine.regOfNumber n with
    | some r =>
      (Machine.regAccess r == .readOnly) || (Machine.valueWidth v == Machine.regWidth r)
    | none => false
  | .readReg n => (Machine.regOfNumber n).isSome
  | .writeIn a _ => a < p.ibufSize
  | .readIn a => a < p.ibufSize
  | .writeOut a _ => a < p.obufSize
  | .readOut a => a < p.obufSize
  | .reset => true

end Sys2Proof
end

