-- ==== Sys2Proof/Safety.lean ====
section
/-! DEFINITION. What holds in every state a run can reach (spec/10_state.md R24, R26, R27, R30, R31, R32;
spec/30_encoding.md R83), and which states have a next step that the spec gives a meaning. -/

namespace Sys2Proof.Machine

/-- The lengths a packet can have: none built yet, a magic packet, an ARP probe, an ICMP probe (R27). -/
abbrev packetLengths : List Nat := [0, 102, 42, 42 + Config.params.icmpData.length]

/-- No command has run since reset: every register a command writes, but `TGT`, which the host writes
too, still holds its reset value (R24, R36). -/
structure State.Untouched (s : State) : Prop where
  olen : s.olen = 0
  cksum : s.cksum = 0
  ckfold : s.ckfold = 0
  matchReg : s.matchReg = 0
  arp : arpRegisters s = arpRegisters State.reset
  rIcmpType : s.rIcmpType = 0
  rSrcHw : s.rSrcHw = zeroHw

/-- The invariant of the machine. -/
structure State.Inv (s : State) : Prop where
  /-- Legal values of `ILEN` are `0..IBUF_SIZE` (R26). -/
  ilen_le : s.ilen.toNat ≤ Config.params.ibufSize
  /-- `OLEN <= OBUF_SIZE` always (R27). -/
  olen_le : s.olen.toNat ≤ Config.params.obufSize
  /-- `OLEN` is the length of a packet the block builds (R27). -/
  olen_packet : s.olen.toNat ∈ packetLengths
  /-- Codes 5 to 7 are never produced and the upper bits of `STATUS` are zero (R24). -/
  status_legal : s.status.toNat ≤ 4
  /-- Kind 3 is never produced and the upper bits of `MATCH` are zero (R31). -/
  match_legal : s.matchReg.toNat ≤ 2
  /-- `CKSUM + CKFOLD == 0xFFFF` from the first `CKSUM` command on; before it both are 0 (R30). -/
  sums : s.cksum.toNat + s.ckfold.toNat = 0xFFFF ∨ (s.cksum = 0 ∧ s.ckfold = 0)
  /-- While `MATCH.KIND == 1` the ARP registers hold a well-formed ArpMessage (R32, R83). -/
  arp_lengths : s.matchReg = 1 → s.aHlen = 6 ∧ s.aPlen = 4
  /-- `CODE = IDLE` only while no command has run since reset (R24). -/
  idle_untouched : s.status = 0 → s.Untouched
  /-- `IBUF` is in canonical form. -/
  ibuf_wf : s.ibuf.wf
  /-- `IBUF` has `IBUF_SIZE` bytes (R28). -/
  ibuf_inside : ∀ c ∈ s.ibuf, c.1 < Config.params.ibufSize
  /-- `OBUF` is in canonical form. -/
  obuf_wf : s.obuf.wf
  /-- Exactly the bytes of `OBUF[0 .. OLEN)` are specified (R29). -/
  obuf_packet : ∀ a, (s.obuf.read a).isSome ↔ a < s.olen.toNat

/-- The host's next transaction, if there is one, has a meaning (R35, R51). -/
def State.nextIsMeaningful (s : State) : Prop :=
  ∀ t rest, s.pending = t :: rest → t.wf Config.params = true

/-! ### Terms the claims use -/

/-- The host's next transaction is `t`. -/
def State.nextIs (s : State) (t : Transaction) : Prop := ∃ rest, s.pending = t :: rest

/-- The 16-bit words of a byte sequence of even length, high byte first, whose sum is `wordSum`
(R110). -/
def wordsOf : List Byte → List Nat
  | hi :: lo :: r => be16 hi lo :: wordsOf r
  | _ => []

/-- One addition of a 16-bit accumulator that adds 1 whenever the 17-bit result exceeds `0xFFFF`
(R115). -/
def addWithCarry (a w : Nat) : Nat := if 0xFFFF < a + w then a + w - 0xFFFF else a + w

/-- The character code of a hexadecimal digit, upper case (R123). -/
def upperDigit (d : Nat) : Byte :=
  if d < 10 then BitVec.ofNat 8 (0x30 + d) else BitVec.ofNat 8 (0x41 + (d - 10))

/-- The character code of a hexadecimal digit, lower case (R123). -/
def lowerDigit (d : Nat) : Byte :=
  if d < 10 then BitVec.ofNat 8 (0x30 + d) else BitVec.ofNat 8 (0x61 + (d - 10))

/-- The characters a hexadecimal digit may be: `0` to `9`, `A` to `F`, `a` to `f` (R123). -/
def isHexChar (c : Byte) : Prop :=
  (0x30 ≤ c.toNat ∧ c.toNat ≤ 0x39) ∨ (0x41 ≤ c.toNat ∧ c.toNat ≤ 0x46) ∨
    (0x61 ≤ c.toNat ∧ c.toNat ≤ 0x66)

/-- A byte as two upper-case hexadecimal digits. -/
def hexPair (b : Byte) : List Byte := [upperDigit (b.toNat / 16), upperDigit (b.toNat % 16)]

/-- The canonical colon-separated hexadecimal string of an address, as `00:1A:2B:3C:4D:5E` (R122). -/
def canonicalString (m : HwAddr) : List Byte :=
  hexPair m.b0 ++ [colon] ++ hexPair m.b1 ++ [colon] ++ hexPair m.b2 ++ [colon] ++
    hexPair m.b3 ++ [colon] ++ hexPair m.b4 ++ [colon] ++ hexPair m.b5

/-- Register numbers with the value a host read of each returns (R20, R24, R25, R31, R35). -/
def registerReads (s : State) : List (Nat × RegValue) :=
  [ (0, .byte 0), (1, .byte (s.status &&& 0x07)), (2, .six s.tgt), (3, .six s.lhw), (4, .four s.lip),
    (5, .word s.ilen), (6, .word s.olen), (7, .word s.cksum), (8, .word s.ckfold),
    (9, .byte (s.matchReg &&& 0x03)) ] ++
  [ (10, .word s.aHtype), (11, .word s.aPtype), (12, .byte s.aHlen), (13, .byte s.aPlen),
    (14, .word s.aOper), (15, .six s.aSha), (16, .four s.aSpa), (17, .six s.aTha), (18, .four s.aTpa),
    (19, .byte s.rIcmpType), (20, .six s.rSrcHw) ]

end Sys2Proof.Machine
end

