-- ==== Sys2Proof/Certificates/Slice0/Obligations.lean ====
section
/-! DEFINITION. The statements about the model, for the provers. Each cites the rules of spec/ it
formalises. `inByte` and `outByte` are the reads of one byte of `IBUF` and `OBUF`; a byte of `OBUF` at or
above `OLEN` is unspecified (spec/93_implementation_defined.md U1) and `outByte` gives none there. -/

open Sys2Proof Sys2Proof.Machine

/-! ### Encoding -/

/-- Decoding the byte of a command gives the command back, and a byte that decodes to a command is that
command's byte (R72, R73; the codes are the spec's decision D5). -/
def Obligations.DecodeRecoversEveryCommand : Prop :=
  (∀ i : Instr, i.wf = true → decode (encode i) = .ok i) ∧
  ∀ (c : Byte) (i : Instr), decode c = .ok i → i.wf = true ∧ encode i = c

/-- The six opcodes, and that every other of the 256 bytes is an illegal command (R72, R73; the codes are the
spec's decision D5). -/
def Obligations.DecoderIsTotalOverTheOpcodeMap : Prop :=
  (decode 0x01 = .ok .magic ∧ decode 0x02 = .ok .magics ∧ decode 0x03 = .ok .arpreq ∧
    decode 0x04 = .ok .icmpreq ∧ decode 0x05 = .ok .cksum ∧ decode 0x06 = .ok .classify) ∧
  ∀ c : Byte, c ∉ ([0x01, 0x02, 0x03, 0x04, 0x05, 0x06] : List Byte) →
    decode c = .error (.illegalCommand c)

/-- `BE16` and `be16` are inverse (R14, R55). -/
def Obligations.BigEndianFieldsRoundTrip : Prop :=
  (∀ v : Word, ∃ hi lo : Byte, bytesOfWord v = [hi, lo] ∧ be16 hi lo = v.toNat) ∧
  ∀ hi lo : Byte, bytesOfWord (BitVec.ofNat 16 (be16 hi lo)) = [hi, lo]

/-! ### Steps and host transactions -/

/-- A write to `CMD` of a command's byte runs that command, on the state in which the write is no longer
pending, and a write of any other byte is an illegal command (R25, R60; what is pending: log entry 1). -/
def Obligations.StepRunsTheDecodedCommand : Prop :=
  ∀ (s : State) (c : Byte) (rest : List Transaction),
    s.pending = .writeReg 0 (.byte c) :: rest →
      (∀ i, decode c = .ok i → i.wf = true → step s = exec i { s with pending := rest }) ∧
      (∀ e, decode c = .error e → step s = .next { s with pending := rest, status := 4 })

/-- A command placed as the host's next transaction is what the next step runs (log entry 1). -/
def Obligations.PlacedCommandRunsNext : Prop :=
  ∀ (s : State) (i : Instr), step (s.withFetchWord 8 (encode i).toNat) = exec i s

/-- R74: the 250 other bytes set `STATUS.CODE` to 4 and change nothing else (the spec's decisions D6 and D7). -/
def Obligations.IllegalCommandOnlySetsStatus : Prop :=
  ∀ (s : State) (c : Byte), (c = 0x00 ∨ 0x07 ≤ c.toNat) →
    runCommand c s = .next { s with status := 4 }

/-- R35, R25: a read of each of the 21 registers returns its value and has no side effect (the register set is
the spec's decision D3; where the value read goes is log entry 3). -/
def Obligations.RegisterReadReturnsTheValueOnly : Prop :=
  ∀ (s : State) (n : Nat) (v : RegValue) (rest : List Transaction),
    (n, v) ∈ registerReads s → s.pending = .readReg n :: rest →
      step s = .next { s with pending := rest, observed := s.observed ++ [.reg n v] }

/-- R35: a write of an operand register replaces its value and has no other effect (the spec's decision D3). -/
def Obligations.OperandWriteReplacesTheRegister : Prop :=
  ∀ (s : State) (rest : List Transaction),
    (∀ a : HwAddr, s.pending = .writeReg 2 (.six a) :: rest →
      step s = .next { s with pending := rest, tgt := a }) ∧
    (∀ a : HwAddr, s.pending = .writeReg 3 (.six a) :: rest →
      step s = .next { s with pending := rest, lhw := a }) ∧
    ∀ a : IpAddr, s.pending = .writeReg 4 (.four a) :: rest →
      step s = .next { s with pending := rest, lip := a }

/-- R26: `ILEN` takes a value up to `IBUF_SIZE`, whatever that size is, a larger one is dropped and nothing
changes, and no command writes it (the spec's decision D4, log entry 10). -/
def Obligations.IlenTakesOnlyLengthsThatFit : Prop :=
  (∀ (s : State) (n : Word) (rest : List Transaction), s.pending = .writeReg 5 (.word n) :: rest →
    step s = .next (writeIlenWithin Config.params.ibufSize n { s with pending := rest })) ∧
  (∀ (size : Nat) (s : State) (n : Word),
    (n.toNat ≤ size → writeIlenWithin size n s = { s with ilen := n }) ∧
    (size < n.toNat → writeIlenWithin size n s = s)) ∧
  ∀ (i : Instr) (s t : State), exec i s = .next t → t.ilen = s.ilen

/-- R35: a write of a read-only register (1 and 6 to 20), of any value, is ignored (the spec's
decision D3). -/
def Obligations.ReadOnlyWriteIsIgnored : Prop :=
  ∀ (s : State) (n : Nat) (v : RegValue) (rest : List Transaction),
    (n = 1 ∨ (6 ≤ n ∧ n ≤ 20)) → s.pending = .writeReg n v :: rest →
      step s = .next { s with pending := rest }

/-- R51: `HostWriteIn` inside the buffer sets its one byte, and every register, every other byte of `IBUF`
and `OBUF` are unchanged (the spec's decision D4). -/
def Obligations.HostWriteInSetsOneByte : Prop :=
  ∀ (s : State) (a : Nat) (b : Byte) (rest : List Transaction),
    s.pending = .writeIn a b :: rest → a < Config.params.ibufSize →
      ∃ t, step s = .next t ∧ t = { s with pending := rest, ibuf := t.ibuf } ∧
        t.inByte a = b ∧ ∀ c, c ≠ a → t.inByte c = s.inByte c

/-- R51: `HostReadIn` and `HostReadOut` inside the buffer return the byte and have no side effect. A byte
of `OBUF` that is unspecified reads as a fresh free value (U1; the counter of such reads is the model's
own, log entry 5). -/
def Obligations.BufferReadReturnsTheByteOnly : Prop :=
  ∀ (s : State) (a : Nat) (rest : List Transaction),
    (s.pending = .readIn a :: rest → a < Config.params.ibufSize →
      step s = .next { s with pending := rest, observed := s.observed ++ [.inByte a (s.inByte a)] }) ∧
    (s.pending = .readOut a :: rest → a < Config.params.obufSize →
      (∀ b, s.outByte a = some b →
        step s = .next { s with pending := rest, observed := s.observed ++ [.outByte a b] }) ∧
      (s.outByte a = none →
        step s = .next
          { s with
            pending := rest
            observed := s.observed ++ [.outByte a (Config.obufUnspecified s.draws)]
            draws := s.draws + 1 }))

/-- R51: a host write to `OBUF` is ignored (the spec's decision D4). -/
def Obligations.HostWriteOutIsIgnored : Prop :=
  ∀ (s : State) (a : Nat) (b : Byte) (rest : List Transaction),
    s.pending = .writeOut a b :: rest → a < Config.params.obufSize →
      step s = .next { s with pending := rest }

/-- U4 (log entry 8): an access outside a space has no meaning and is refused by name. -/
def Obligations.AccessOutsideASpaceIsRefused : Prop :=
  ∀ (s : State) (n : Nat) (rest : List Transaction),
    (∀ v, s.pending = .writeReg n v :: rest → 20 < n →
      step s = .refused (.registerNumberAbove20 n)) ∧
    (s.pending = .readReg n :: rest → 20 < n → step s = .refused (.registerNumberAbove20 n)) ∧
    (∀ b, s.pending = .writeIn n b :: rest → Config.params.ibufSize ≤ n →
      step s = .refused (.offsetOutsideBuffer .ibuf n)) ∧
    (s.pending = .readIn n :: rest → Config.params.ibufSize ≤ n →
      step s = .refused (.offsetOutsideBuffer .ibuf n)) ∧
    (∀ b, s.pending = .writeOut n b :: rest → Config.params.obufSize ≤ n →
      step s = .refused (.offsetOutsideBuffer .obuf n)) ∧
    (s.pending = .readOut n :: rest → Config.params.obufSize ≤ n →
      step s = .refused (.offsetOutsideBuffer .obuf n))

/-- Log entry 2 (from R11, R60): with no transaction pending a step changes nothing. -/
def Obligations.StepWithoutTransactionIsIdle : Prop :=
  ∀ s : State, s.pending = [] → step s = .next s

/-- R190, R36: the state after reset, and what the platform's reset leaves: every register at zero, and no
byte of either buffer specified (the spec's decision D9). -/
def Obligations.ResetZeroesRegistersAndForgetsBuffers : Prop :=
  ((∀ n v, (n, v) ∈ registerReads State.reset →
      v = .byte 0 ∨ v = .word 0 ∨ v = .six ⟨0, 0, 0, 0, 0, 0⟩ ∨ v = .four ⟨0, 0, 0, 0⟩) ∧
    ∀ a, State.reset.ibuf.read a = none ∧ State.reset.outByte a = none) ∧
  ∀ s : State, ∃ t, perform .reset s = .next t ∧
    registerReads t = registerReads State.reset ∧ t.status = 0 ∧ t.matchReg = 0 ∧
    ∀ a, t.ibuf.read a = none ∧ t.outByte a = none

/-- R75, the line `INX` (R60: each write is seen by what follows): its transactions leave exactly the given
bytes as `IBUF[0 .. ILEN)`, and change nothing but those bytes and `ILEN` (the notation is the spec's decision
D10, its expansion log entry 18). -/
def Obligations.LoadLineFillsTheInput : Prop :=
  ∀ (s : State) (bytes : List Byte),
    s.pending = [] → bytes.length ≤ Config.params.ibufSize → bytes.length < 65536 →
      ∃ r t : State, s.withLine (.inBytes bytes) = some r ∧
        Host.Core.run core (bytes.length + 1) r = .next t ∧
        t = { s with ibuf := t.ibuf, ilen := BitVec.ofNat 16 bytes.length } ∧
        t.input = bytes ∧ ∀ a, bytes.length ≤ a → t.inByte a = s.inByte a

/-- R75, the line `LOOPBACK` (the spec's decision D10, log entry 18): its transactions leave
`OBUF[lo .. hi)` as `IBUF[0 .. ILEN)`, and change nothing but those bytes, `ILEN` and what was read. -/
def Obligations.LoopbackLineCopiesThePacket : Prop :=
  ∀ (s : State) (lo hi : Nat), s.Inv → s.pending = [] →
    lo ≤ hi → hi ≤ s.olen.toNat → hi - lo ≤ Config.params.ibufSize →
      ∃ r t : State, s.withLine (.loopback lo hi) = some r ∧
        Host.Core.run core (2 * (hi - lo) + 1) r = .next t ∧
        t = { s with ibuf := t.ibuf, ilen := BitVec.ofNat 16 (hi - lo), observed := t.observed } ∧
        t.input.map some = (s.packet.drop lo).take (hi - lo) ∧
        ∀ a, hi - lo ≤ a → t.inByte a = s.inByte a

/-! ### The magic-packet builder -/

/-- R87: every byte of a magic packet. -/
def Obligations.MagicPacketBytes : Prop :=
  ∀ m : HwAddr, (magicPacket m).length = 102 ∧
    (∀ i, i < 6 → (magicPacket m)[i]? = some 0xFF) ∧
    ∀ i, 6 ≤ i → i < 102 → (magicPacket m)[i]? = (hwBytes m)[(i - 6) % 6]?

/-- R121: `MAGIC` completes from every state with the magic packet of `TGT`, and changes nothing but
`OBUF`, `OLEN` and `STATUS`. -/
def Obligations.MagicBuildsThePacketOfTgt : Prop :=
  encode .magic = 0x01 ∧ ∀ s : State, ∃ t, exec .magic s = .next t ∧
    t = { s with obuf := t.obuf, olen := 102, status := 1 } ∧
    (∀ i, i < 6 → t.outByte i = some 0xFF) ∧
    ∀ k j, k < 16 → j < 6 → t.outByte (6 + 6 * k + j) = (hwBytes s.tgt)[j]?

/-- R124: `MAGICS` on a string of exactly six valid segments completes with `TGT` the address and `OBUF` its
magic packet, as `SET TGT; MAGIC` would, and changes nothing else (that it keeps the address in `TGT` is the
spec's decision D20). -/
def Obligations.MagicsBuildsThePacketOfTheString : Prop :=
  ∀ (s : State) (m : HwAddr),
    (splitColons s.input).map hexSeg = (hwBytes m).map some →
      ∃ t, exec .magics s = .next t ∧
        t = { s with tgt := m, obuf := t.obuf, olen := 102, status := 1 } ∧
        t.packet = (magicPacket m).map some ∧
        exec .magic { s with tgt := m } = .next t

/-- R172, R173: the two failures of `MAGICS`, each writing `STATUS` only, and the segments that are not valid
hexadecimal. That an invalid segment wins over a wrong count is R172 read with the spec's decision D19. -/
def Obligations.MagicsFailuresWriteStatusOnly : Prop :=
  (∀ g : List Byte, (g = [] ∨ 2 < g.length ∨ ∃ c ∈ g, ¬isHexChar c) → hexSeg g = none) ∧
  ∀ s : State,
    ((∃ g ∈ splitColons s.input, hexSeg g = none) →
      exec .magics s = .next { s with status := 2 }) ∧
    ((∀ g ∈ splitColons s.input, hexSeg g ≠ none) → (splitColons s.input).length ≠ 6 →
      exec .magics s = .next { s with status := 3 })

/-- R126: the document's own testable properties of the builder, its literal strings among them. -/
def Obligations.BuilderMeetsTheDocumentsProperties : Prop :=
  ∀ s : State,
    (∀ m : HwAddr, ∃ t, exec .magic { s with tgt := m } = .next t ∧ t.olen = 102 ∧
      (∀ i, i < 6 → t.outByte i = some 0xFF) ∧
      ∀ k j, k < 16 → j < 6 → t.outByte (6 + 6 * k + j) = (hwBytes m)[j]?) ∧
    (s.input = [0x30, 0x30, 0x3A, 0x30, 0x31, 0x3A, 0x30, 0x32, 0x3A] ++
        [0x30, 0x33, 0x3A, 0x30, 0x34, 0x3A, 0x30, 0x35] →
      ∃ t r, exec .magics s = .next t ∧ exec .magic { s with tgt := ⟨0, 1, 2, 3, 4, 5⟩ } = .next r ∧
        t.packet = r.packet ∧ t.olen = r.olen ∧ t.tgt = r.tgt) ∧
    (s.input = [0x47, 0x47, 0x3A, 0x30, 0x30, 0x3A, 0x30, 0x30, 0x3A] ++
        [0x30, 0x30, 0x3A, 0x30, 0x30, 0x3A, 0x30, 0x30] →
      exec .magics s = .next { s with status := 2 }) ∧
    (s.input = [0x30, 0x30, 0x3A, 0x30, 0x30, 0x3A, 0x30, 0x30, 0x3A, 0x30, 0x30, 0x3A, 0x30, 0x30] →
      exec .magics s = .next { s with status := 3 })

/-- R122, R123, R124: the canonical string of any address, as the document writes it, parses to that
address (the grammar is the spec's decision D18). -/
def Obligations.CanonicalStringParsesToItsAddress : Prop :=
  ∀ (s : State) (m : HwAddr), s.input = canonicalString m →
    ∃ t, exec .magics s = .next t ∧ t.tgt = m ∧ t.status = 1 ∧ t.olen = 102 ∧
      t.packet = (magicPacket m).map some

/-- R122: splitting at colons gives one segment more than there are colons, no segment holds a colon, and
the segments joined by colons are the string again (the spec's decision D18). -/
def Obligations.SplitColonsLosesNothing : Prop :=
  ∀ s : List Byte, (splitColons s).length = 1 + s.count 0x3A ∧
    (∀ g ∈ splitColons s, (0x3A : Byte) ∉ g) ∧
    List.intercalate [(0x3A : Byte)] (splitColons s) = s

/-- R123: a segment is valid exactly when it is one or two hexadecimal digits of either case, and its value
is the byte those digits spell (the spec's decision D18). -/
def Obligations.HexSegmentGrammarAndValue : Prop :=
  (∀ g : List Byte, hexSeg g ≠ none ↔ (g.length = 1 ∨ g.length = 2) ∧ ∀ c ∈ g, isHexChar c) ∧
  (∀ d, d < 16 → ∀ c, (c = upperDigit d ∨ c = lowerDigit d) → hexSeg [c] = some (BitVec.ofNat 8 d)) ∧
  ∀ d e, d < 16 → e < 16 → ∀ c f, (c = upperDigit d ∨ c = lowerDigit d) →
    (f = upperDigit e ∨ f = lowerDigit e) → hexSeg [c, f] = some (BitVec.ofNat 8 (16 * d + e))

/-! ### The probes -/

/-- R130, R131: `ARPREQ` completes from every state with the 42 bytes of the probe, written out, and changes
nothing but `OBUF`, `OLEN` and `STATUS` (the two broadcast addresses are the spec's decision D13). -/
def Obligations.ArpreqBuildsTheProbeFrame : Prop :=
  encode .arpreq = 0x03 ∧ ∀ s : State, ∃ t, exec .arpreq s = .next t ∧
    t = { s with obuf := t.obuf, olen := 42, status := 1 } ∧
    t.packet =
      ([0xFF, 0xFF, 0xFF, 0xFF, 0xFF, 0xFF, s.lhw.b0, s.lhw.b1, s.lhw.b2, s.lhw.b3, s.lhw.b4, s.lhw.b5,
        0x08, 0x06, 0x00, 0x01, 0x08, 0x00, 0x06, 0x04, 0x00, 0x01,
        s.lhw.b0, s.lhw.b1, s.lhw.b2, s.lhw.b3, s.lhw.b4, s.lhw.b5, s.lip.b0, s.lip.b1, s.lip.b2, s.lip.b3,
        s.tgt.b0, s.tgt.b1, s.tgt.b2, s.tgt.b3, s.tgt.b4, s.tgt.b5, 0xFF, 0xFF, 0xFF, 0xFF].map some)

/-- R133: the classifier answers the ARP probe with the nine fields it was built from. -/
def Obligations.ArpProbeClassifiesAsItsMessage : Prop :=
  ∀ (tgt lhw : HwAddr) (lip : IpAddr),
    classifyFrame (arpProbe tgt lhw lip) =
      .arp ⟨1, 0x0800, 6, 4, 1, lhw, lip, tgt, ⟨0xFF, 0xFF, 0xFF, 0xFF⟩⟩

/-- R140, R141: `ICMPREQ` completes from every state with the bytes of the probe, written out: the two
checksums are those of the IPv4 header and of the ICMP message with the checksum field zero. Nothing but
`OBUF`, `OLEN` and `STATUS` changes. (Destination, zero fields and parameters are the spec's decisions D14 to
D17.) -/
def Obligations.IcmpreqBuildsTheProbeFrame : Prop :=
  encode .icmpreq = 0x04 ∧ ∀ s : State, ∃ t, exec .icmpreq s = .next t ∧
    t = { s with obuf := t.obuf, olen := t.olen, status := 1 } ∧
    t.olen.toNat = 42 + Config.params.icmpData.length ∧
    t.packet =
      (let n := Config.params.icmpData.length
       let ip := fun sum : Word =>
        [(0x45 : Byte), 0x00] ++ bytesOfWord (BitVec.ofNat 16 (28 + n)) ++ [0x00, 0x00] ++
          bytesOfWord (BitVec.ofNat 16 (Config.params.ipFlags.toNat * 8192)) ++
          [Config.params.ipTtl, 0x01] ++ bytesOfWord sum ++
          [s.lip.b0, s.lip.b1, s.lip.b2, s.lip.b3, 0xFF, 0xFF, 0xFF, 0xFF]
       let icmp := fun sum : Word =>
        [(0x08 : Byte), 0x00] ++ bytesOfWord sum ++ [0x00, 0x00, 0x00, 0x00] ++ Config.params.icmpData
       [s.tgt.b0, s.tgt.b1, s.tgt.b2, s.tgt.b3, s.tgt.b4, s.tgt.b5,
        s.lhw.b0, s.lhw.b1, s.lhw.b2, s.lhw.b3, s.lhw.b4, s.lhw.b5, 0x08, 0x00] ++
        ip (~~~(fold (ip 0))) ++ icmp (~~~(fold (icmp 0)))).map some

/-- R144: the invariants of the ICMP probe, for all parameters within their constraints: its length, its
total-length field, and that both of its checksums verify (log entry 6 says what a
parameter may be). -/
def Obligations.IcmpProbeLengthsAndChecksumsVerify : Prop :=
  ∀ (p : Params) (tgt lhw : HwAddr) (lip : IpAddr), p.wf →
    ∀ f, f = icmpProbe p tgt lhw lip →
      f.length = 42 + p.icmpData.length ∧
      be16 (byteAt f 16) (byteAt f 17) = 28 + p.icmpData.length ∧
      be16 (byteAt f 16) (byteAt f 17) = f.length - 14 ∧
      fold ((f.drop 14).take 20) = 0xFFFF ∧ fold (f.drop 34) = 0xFFFF

/-- R145: the classifier answers the ICMP probe with type 8 and the source `LHW` (that the type is
reported and not filtered is the spec's decision D21, log entry 17). -/
def Obligations.IcmpProbeClassifiesAsEchoRequest : Prop :=
  ∀ (p : Params) (tgt lhw : HwAddr) (lip : IpAddr),
    classifyFrame (icmpProbe p tgt lhw lip) = .icmp 8 lhw

/-! ### The checksum unit -/

/-- R115: the closed form of `Fold`, and that it is 0 only when every word is zero. -/
def Obligations.FoldHasTheClosedForm : Prop :=
  ∀ s : List Byte,
    (wordSum (completeOdd s) = 0 → (fold s).toNat = 0) ∧
    (0 < wordSum (completeOdd s) →
      (fold s).toNat = (wordSum (completeOdd s) - 1) % 0xFFFF + 1) ∧
    (fold s = 0 ↔ ∀ w ∈ wordsOf (completeOdd s), w = 0)

/-- R115: a 16-bit accumulator that adds each carry back at once gives the same `Fold`. -/
def Obligations.FoldIsTheSixteenBitAccumulator : Prop :=
  ∀ s : List Byte, (fold s).toNat = (wordsOf (completeOdd s)).foldl addWithCarry 0

/-- R115: the result does not depend on the order in which words are added. -/
def Obligations.FoldIgnoresTheOrderOfWords : Prop :=
  ∀ s r : List Byte, (wordsOf (completeOdd s)).Perm (wordsOf (completeOdd r)) → fold s = fold r

/-- R114: the verification identity. -/
def Obligations.InsertedChecksumVerifies : Prop :=
  ∀ (d0 : List Byte) (o : Nat), o % 2 = 0 → d0[o]? = some 0x00 → d0[o + 1]? = some 0x00 →
    ∀ d, d = d0.take o ++ bytesOfWord (cksum d0) ++ d0.drop (o + 2) →
      fold d = 0xFFFF ∧ cksum d = 0x0000

/-- R112 (words and odd length are the spec's decision D12): `CKSUM` completes from every state with the
folded sum of `IBUF[0 .. ILEN)` and its complement, and changes nothing but `CKFOLD`, `CKSUM` and `STATUS`. -/
def Obligations.CksumWritesTheSumAndItsComplement : Prop :=
  encode .cksum = 0x05 ∧ ∀ s : State,
    exec .cksum s =
      .next { s with ckfold := fold s.input, cksum := ~~~(fold s.input), status := 1 } ∧
    s.input = (List.range s.ilen.toNat).map s.inByte ∧
    (s.ilen = 0 → fold s.input = 0x0000 ∧ ~~~(fold s.input) = 0xFFFF) ∧
    ((∀ b ∈ s.input, b = 0x00) → fold s.input = 0x0000) ∧
    (s.input = [0xFF, 0xFF] → fold s.input = 0xFFFF ∧ ~~~(fold s.input) = 0x0000)

/-- R30: after a `CKSUM` command the two result registers add up to `0xFFFF`. -/
def Obligations.CksumResultsAddUpToAllOnes : Prop :=
  ∀ s : State, ∃ t, exec .cksum s = .next t ∧ t.cksum.toNat + t.ckfold.toNat = 0xFFFF

/-! ### The parse direction -/

/-- R150: what `CLASSIFY` writes for each verdict: it completes from every state, the report registers of
the other kinds keep their values, and bytes after a frame that matches are ignored. -/
def Obligations.ClassifyReportsItsVerdict : Prop :=
  encode .classify = 0x06 ∧ ∀ s : State,
    s.input = (List.range s.ilen.toNat).map s.inByte ∧
    (s.ilen.toNat < 14 → classifyFrame s.input = .none) ∧
    (classifyFrame s.input ≠ .none → ∀ z, classifyFrame (s.input ++ z) = classifyFrame s.input) ∧
    (∀ m, classifyFrame s.input = .arp m →
      exec .classify s = .next
        { s with
          matchReg := 1, aHtype := m.htype, aPtype := m.ptype, aHlen := m.hlen, aPlen := m.plen
          aOper := m.oper, aSha := m.sha, aSpa := m.spa, aTha := m.tha, aTpa := m.tpa, status := 1 }) ∧
    (∀ ty src, classifyFrame s.input = .icmp ty src →
      exec .classify s = .next
        { s with matchReg := 2, rIcmpType := ty, rSrcHw := src, status := 1 }) ∧
    (classifyFrame s.input = .none → exec .classify s = .next { s with matchReg := 0, status := 1 })

/-- R153: an ARP frame matches exactly when its payload has 28 bytes and the two address lengths are 6 and 4;
every field is reported, none else is checked (the spec's decision D21). -/
def Obligations.ArpFrameMatchesExactlyWhenWellFormed : Prop :=
  ∀ b p : List Byte, 14 ≤ b.length → be16 (byteAt b 12) (byteAt b 13) = 0x0806 → p = b.drop 14 →
    (28 ≤ p.length ∧ byteAt p 4 = 6 ∧ byteAt p 5 = 4 →
      classifyFrame b = .arp
        ⟨BitVec.ofNat 16 (be16 (byteAt p 0) (byteAt p 1)), BitVec.ofNat 16 (be16 (byteAt p 2) (byteAt p 3)),
          byteAt p 4, byteAt p 5, BitVec.ofNat 16 (be16 (byteAt p 6) (byteAt p 7)),
          hwAt p 8, ipAt p 14, hwAt p 18, ipAt p 24⟩) ∧
    (¬(28 ≤ p.length ∧ byteAt p 4 = 6 ∧ byteAt p 5 = 4) → classifyFrame b = .none)

/-- R155: an IPv4 frame matches exactly when the six checks hold; the ICMP type is the byte after the header,
options included, and the source address is bytes 6 to 11 (the spec's decision D21). -/
def Obligations.IcmpFrameMatchesExactlyWhenWellFormed : Prop :=
  ∀ (b p : List Byte) (ihl : Nat), 14 ≤ b.length → be16 (byteAt b 12) (byteAt b 13) = 0x0800 →
    p = b.drop 14 → ihl = (byteAt p 0).toNat % 16 →
    (20 ≤ p.length ∧ (byteAt p 0).toNat / 16 = 4 ∧ 5 ≤ ihl ∧ byteAt p 9 = 1 ∧ 4 * ihl + 8 ≤ p.length →
      classifyFrame b = .icmp (byteAt p (4 * ihl)) (hwAt b 6)) ∧
    (¬(20 ≤ p.length ∧ (byteAt p 0).toNat / 16 = 4 ∧ 5 ≤ ihl ∧ byteAt p 9 = 1 ∧ 4 * ihl + 8 ≤ p.length) →
      classifyFrame b = .none)

/-- R157: a frame of another EtherType, or an IPv4 frame of another protocol than ICMP, is not a match, and
`CLASSIFY` says so without an error. -/
def Obligations.ForeignFrameIsNoMatchAndNoError : Prop :=
  ∀ s : State, 14 ≤ s.input.length →
    ((be16 (byteAt s.input 12) (byteAt s.input 13) ≠ 0x0800 ∧
        be16 (byteAt s.input 12) (byteAt s.input 13) ≠ 0x0806) ∨
      (be16 (byteAt s.input 12) (byteAt s.input 13) = 0x0800 ∧ byteAt s.input 23 ≠ 1)) →
      classifyFrame s.input = .none ∧ exec .classify s = .next { s with matchReg := 0, status := 1 }

/-- R154: ARP parse is the exact left inverse of ARP build, trailing bytes or not, and on 28 bytes the converse
holds too. -/
def Obligations.ArpParseInvertsArpBuild : Prop :=
  (∀ (m : ArpMessage) (z : List Byte), m.hlen = 6 → m.plen = 4 →
    arpDecode (arpEncode m ++ z) = some m ∧
    ∀ d s : HwAddr, classifyFrame (ethEncode d s 0x0806 (arpEncode m ++ z)) = .arp m) ∧
  ∀ (p : List Byte) (m : ArpMessage), p.length = 28 → arpDecode p = some m → arpEncode m = p

/-- R158, R159 (5): the first 82 bytes of a frame decide its verdict. -/
def Obligations.ClassifyNeedsOnly82Bytes : Prop :=
  ∀ (b : List Byte) (n : Nat), 82 ≤ n → classifyFrame (b.take n) = classifyFrame b

/-! ### Whole-machine rules -/

/-- Every command completes from every state: none stops, whatever its operands (R12, R170). -/
def Obligations.EveryCommandCompletes : Prop :=
  ∀ (i : Instr) (s : State), ∃ t, exec i s = .next t

/-- R52: a command writes nothing that its row does not list. Every byte of `IBUF` reads as before. A build
command leaves in `OBUF` the bytes below the new `OLEN`; those at or above it are unspecified (U1). -/
def Obligations.CommandWritesOnlyItsRow : Prop :=
  ∀ s t : State,
    ((exec .magic s = .next t ∨ exec .arpreq s = .next t ∨ exec .icmpreq s = .next t) →
      t = { s with obuf := t.obuf, olen := t.olen, status := t.status } ∧
      ∀ a, t.inByte a = s.inByte a) ∧
    (exec .magics s = .next t →
      (t.status = 1 →
        t = { s with tgt := t.tgt, obuf := t.obuf, olen := t.olen, status := t.status }) ∧
      (t.status ≠ 1 → t = { s with status := t.status } ∧ ∀ a, t.outByte a = s.outByte a) ∧
      ∀ a, t.inByte a = s.inByte a) ∧
    (exec .cksum s = .next t →
      t = { s with cksum := t.cksum, ckfold := t.ckfold, status := t.status } ∧
      ∀ a, t.inByte a = s.inByte a ∧ t.outByte a = s.outByte a) ∧
    (exec .classify s = .next t →
      t = { s with
            matchReg := t.matchReg, aHtype := t.aHtype, aPtype := t.aPtype, aHlen := t.aHlen
            aPlen := t.aPlen, aOper := t.aOper, aSha := t.aSha, aSpa := t.aSpa, aTha := t.aTha
            aTpa := t.aTpa, rIcmpType := t.rIcmpType, rSrcHw := t.rSrcHw, status := t.status } ∧
      (t.matchReg ≠ 1 → arpRegisters t = arpRegisters s) ∧
      (t.matchReg ≠ 2 → t.rIcmpType = s.rIcmpType ∧ t.rSrcHw = s.rSrcHw) ∧
      ∀ a, t.inByte a = s.inByte a ∧ t.outByte a = s.outByte a)

/-- R52, R15: what a command leaves depends only on what its row lists as read: two states that agree on it,
and may differ anywhere else, `OBUF` included, end with the same results. -/
def Obligations.CommandReadsOnlyItsRow : Prop :=
  ∀ s r s' r' : State,
    (s.tgt = r.tgt → exec .magic s = .next s' → exec .magic r = .next r' →
      s'.packet = r'.packet ∧ s'.olen = r'.olen ∧ s'.status = r'.status) ∧
    (s.input = r.input → exec .magics s = .next s' → exec .magics r = .next r' →
      s'.status = r'.status ∧
      (s'.status = 1 → s'.tgt = r'.tgt ∧ s'.packet = r'.packet ∧ s'.olen = r'.olen)) ∧
    (s.tgt = r.tgt → s.lhw = r.lhw → s.lip = r.lip →
      (exec .arpreq s = .next s' → exec .arpreq r = .next r' →
        s'.packet = r'.packet ∧ s'.olen = r'.olen ∧ s'.status = r'.status) ∧
      (exec .icmpreq s = .next s' → exec .icmpreq r = .next r' →
        s'.packet = r'.packet ∧ s'.olen = r'.olen ∧ s'.status = r'.status)) ∧
    (s.input = r.input → exec .cksum s = .next s' → exec .cksum r = .next r' →
      s'.cksum = r'.cksum ∧ s'.ckfold = r'.ckfold ∧ s'.status = r'.status) ∧
    (s.input = r.input → exec .classify s = .next s' → exec .classify r = .next r' →
      s'.matchReg = r'.matchReg ∧ s'.status = r'.status ∧
      (s'.matchReg = 1 → arpRegisters s' = arpRegisters r') ∧
      (s'.matchReg = 2 → s'.rIcmpType = r'.rIcmpType ∧ s'.rSrcHw = r'.rSrcHw))

/-- R170, R171, R24: every write of a byte to `CMD` leaves a code of 1 to 4; any but `OK` changed `STATUS` only;
and only `MAGICS` and an illegal code can leave another than `OK` (the spec's decisions D7 and D8). -/
def Obligations.ErrorChangesStatusOnly : Prop :=
  ∀ (s : State) (c : Byte),
    ∃ t, runCommand c s = .next t ∧ t.status ∈ ([1, 2, 3, 4] : List Byte) ∧
      (t.status ≠ 1 → t = { s with status := t.status }) ∧
      (t.status ≠ 1 → (c = 0x02 ∧ (t.status = 2 ∨ t.status = 3)) ∨
        ((c = 0x00 ∨ 0x07 ≤ c.toNat) ∧ t.status = 4))

/-- R20, the column "written by", and R28, R29: which transactions can change each register and each buffer. -/
def Obligations.StateChangesOnlyByItsWriters : Prop :=
  ∀ s t : State, step s = .next t → ¬s.nextIs .reset →
    (t.status ≠ s.status → ∃ c, s.nextIs (.writeReg 0 (.byte c))) ∧
    (t.tgt ≠ s.tgt → s.nextIs (.writeReg 2 (.six t.tgt)) ∨ s.nextIs (.writeReg 0 (.byte 0x02))) ∧
    (t.lhw ≠ s.lhw → s.nextIs (.writeReg 3 (.six t.lhw))) ∧
    (t.lip ≠ s.lip → s.nextIs (.writeReg 4 (.four t.lip))) ∧
    (t.ilen ≠ s.ilen → s.nextIs (.writeReg 5 (.word t.ilen))) ∧
    (t.olen ≠ s.olen ∨ t.packet ≠ s.packet →
      s.nextIs (.writeReg 0 (.byte 0x01)) ∨ s.nextIs (.writeReg 0 (.byte 0x02)) ∨
        s.nextIs (.writeReg 0 (.byte 0x03)) ∨ s.nextIs (.writeReg 0 (.byte 0x04))) ∧
    (t.cksum ≠ s.cksum ∨ t.ckfold ≠ s.ckfold → s.nextIs (.writeReg 0 (.byte 0x05))) ∧
    (t.matchReg ≠ s.matchReg ∨ arpRegisters t ≠ arpRegisters s ∨ t.rIcmpType ≠ s.rIcmpType ∨
        t.rSrcHw ≠ s.rSrcHw → s.nextIs (.writeReg 0 (.byte 0x06))) ∧
    ∀ a, t.inByte a ≠ s.inByte a → s.nextIs (.writeIn a (t.inByte a))

/-- R11, R60: a step takes exactly the host's next transaction, and reads only add to what was read (how
both are held: log entries 1 and 3). -/
def Obligations.StepTakesOneTransaction : Prop :=
  ∀ (s t : State) (x : Transaction) (rest : List Transaction),
    s.pending = x :: rest → step s = .next t →
      t.pending = rest ∧ ∃ l, t.observed = s.observed ++ l ∧ l.length ≤ 1

/-- A step stops exactly at an access to which the spec gives no meaning, with a refusal and never a fault
(U4, R35, R51; the width of a written value is log entry 9). -/
def Obligations.StepStopsOnlyAtMeaninglessAccess : Prop :=
  ∀ s : State,
    (s.nextIsMeaningful → ∃ t, step s = .next t) ∧
    (¬s.nextIsMeaningful → ∃ r, step s = .refused r)

/-- The invariant holds right after reset. -/
def Obligations.ResetMeetsTheMachineInvariant : Prop := State.reset.Inv

/-- Every step keeps the invariant: legal lengths, codes and kinds, the checksum identity from the first
`CKSUM` on, well-formed ARP reports, `IDLE` only before the first command, buffers in canonical form and inside
their sizes, and exactly `OBUF[0 .. OLEN)` specified (R24, R26, R27, R29, R30, R31, R32, R83; how a buffer is
held: log entries 4 and 5). -/
def Obligations.EveryStepKeepsTheMachineInvariant : Prop :=
  ∀ s t : State, s.Inv → step s = .next t → t.Inv

/-- R13: whatever transactions the host issues from reset, every state of the run meets the invariant. The
host's list is loaded as `State.pending` of the reset state, from which the steps take it (the model's choice:
log entries 1 and 2). -/
def Obligations.EveryHostRunKeepsTheMachineInvariant : Prop :=
  ∀ (script : List Transaction) (n : Nat) (t : State),
    Host.Core.run core n { State.reset with pending := script } = .next t → t.Inv
end

