-- ==== Sys2Proof/Laws/AddressString.lean ====
section
/-! SUPPORT. The address string: converting a list of segments (spec/41_magic.md R124). -/

namespace Sys2Proof.Machine

/-- The segments convert to some bytes exactly when each converts to its byte. -/
theorem hexSegs_eq_some (segs : List (List Byte)) (bs : List Byte) :
    hexSegs segs = some bs ↔ segs.map hexSeg = bs.map some := by
  induction segs generalizing bs with
  | nil => cases bs <;> simp [hexSegs]
  | cons g r ih =>
    cases bs with
    | nil =>
      simp only [hexSegs]
      split <;> simp
    | cons b bs =>
      simp only [hexSegs, List.map_cons, List.cons.injEq, ← ih]
      cases hexSeg g <;> cases hexSegs r <;> simp

/-- The segments do not convert exactly when one of them is invalid. -/
theorem hexSegs_eq_none (segs : List (List Byte)) :
    hexSegs segs = none ↔ ∃ g ∈ segs, hexSeg g = none := by
  induction segs with
  | nil => simp [hexSegs]
  | cons g r ih =>
    simp only [hexSegs, List.mem_cons, exists_eq_or_imp, ← ih]
    cases hexSeg g <;> cases hexSegs r <;> simp

/-- As many bytes as segments. -/
theorem hexSegs_length {segs : List (List Byte)} {bs : List Byte} (h : hexSegs segs = some bs) :
    bs.length = segs.length := by
  have := congrArg List.length ((hexSegs_eq_some _ _).1 h)
  simpa using this.symm

end Sys2Proof.Machine
end

