-- ==== Sys2Proof/Laws/Checksum.lean ====
section
/-! SUPPORT. The checksum unit: the end-around carry ends within its fuel, so `Fold` fits 16 bits. -/

namespace Sys2Proof.Machine

/-- One turn of the end-around carry makes the number smaller. -/
theorem carry_lt {t : Nat} (h : 0xFFFF < t) : t % 0x10000 + t / 0x10000 < t := by omega

/-- With fuel enough the end-around carry ends with no carry left. -/
theorem foldCarry_le (fuel t : Nat) (h : t ≤ fuel) : foldCarry fuel t ≤ 0xFFFF := by
  induction fuel generalizing t with
  | zero => simp only [foldCarry]; omega
  | succ n ih =>
    simp only [foldCarry]
    split
    · rename_i hlt
      exact ih _ (by have := carry_lt hlt; omega)
    · omega

/-- Where no carry is left, the end-around carry changes nothing, whatever the fuel. -/
theorem foldCarry_of_le (fuel : Nat) {t : Nat} (h : t ≤ 0xFFFF) : foldCarry fuel t = t := by
  cases fuel with
  | zero => rfl
  | succ n => simp only [foldCarry]; rw [if_neg (by omega)]

/-- A turn of the end-around carry, as R110 writes it: with fuel enough, folding `t` is folding what
one turn leaves. -/
theorem foldCarry_turn {t : Nat} (h : 0xFFFF < t) (fuel : Nat) :
    foldCarry (fuel + 1) t = foldCarry fuel (t % 0x10000 + t / 0x10000) := by
  simp only [foldCarry]; rw [if_pos h]

theorem foldNat_le (s : List Byte) : foldNat s ≤ 0xFFFF := foldCarry_le _ _ (Nat.le_refl _)

@[simp] theorem fold_toNat (s : List Byte) : (fold s).toNat = foldNat s := by
  have := foldNat_le s
  simp only [fold, BitVec.toNat_ofNat]
  omega

theorem cksum_toNat (s : List Byte) : (cksum s).toNat = 0xFFFF - foldNat s := by
  simp [cksum, BitVec.toNat_not]

/-! ### The sum over parts -/

/-- The words of a sequence are those of its parts, where the first part has even length (R57: words
are paired from the first byte of the range). -/
theorem wordSum_append :
    ∀ (s r : List Byte), s.length % 2 = 0 → wordSum (s ++ r) = wordSum s + wordSum r
  | [], r, _ => by simp [wordSum]
  | [_], _, h => by simp at h
  | a :: b :: s, r, h => by
    have hs : s.length % 2 = 0 := by simp only [List.length_cons] at h; omega
    simp only [List.cons_append, wordSum, wordSum_append s r hs]
    omega

/-- Only the last part is completed (R110). -/
theorem completeOdd_append (s r : List Byte) (h : s.length % 2 = 0) :
    completeOdd (s ++ r) = s ++ completeOdd r := by
  have : (s ++ r).length % 2 = r.length % 2 := by simp only [List.length_append]; omega
  unfold completeOdd
  rw [this]
  split <;> simp

end Sys2Proof.Machine
end

