-- ==== Sys2Proof/Laws/Memory.lean ====
section
/-! SUPPORT. The buffers: what a read gives after a write, and that every operation keeps the canonical
form (`Memory.wf`). -/

namespace Sys2Proof.Machine

@[simp] theorem Memory.read_nil (a : Nat) : Memory.read [] a = none := rfl

/-- A read after a write: the byte written there, every other offset as before. -/
theorem Memory.read_write (m : Memory) (a c : Nat) (b : Byte) :
    (m.write a b).read c = if c = a then some b else m.read c := by
  induction m with
  | nil => simp [Memory.write, Memory.read, Memory.unlisted]
  | cons h r ih =>
    obtain ⟨d, x⟩ := h
    by_cases hlt : a < d
    · simp [Memory.write, hlt, Memory.read]
    · by_cases heq : a = d
      · subst heq
        by_cases hc : c = a <;> simp [Memory.write, Memory.read, hc]
      · by_cases hc : c = d
        · subst hc
          simp [Memory.write, hlt, heq, Memory.read, Ne.symm heq]
        · simp [Memory.write, hlt, heq, Memory.read, hc, ih]

/-- Every cell a write leaves is an old one or the one written. -/
theorem Memory.mem_write {m : Memory} {a : Nat} {b : Byte} {c : Host.Cell}
    (h : c ∈ m.write a b) : c = (a, b) ∨ c ∈ m := by
  induction m with
  | nil => simpa [Memory.write] using h
  | cons k r ih =>
    obtain ⟨d, x⟩ := k
    simp only [Memory.write] at h
    split at h
    · simpa using h
    · split at h
      · simp only [List.mem_cons] at h ⊢
        exact h.imp_right .inr
      · simp only [List.mem_cons] at h ⊢
        rcases h with h | h
        · exact .inr (.inl h)
        · exact (ih h).imp_right .inr

/-- A write keeps the canonical form. -/
theorem Memory.write_wf {m : Memory} (h : m.wf) (a : Nat) (b : Byte) : (m.write a b).wf := by
  induction m with
  | nil => exact List.pairwise_singleton _ _
  | cons k r ih =>
    obtain ⟨d, x⟩ := k
    obtain ⟨hd, hr⟩ := List.pairwise_cons.1 h
    simp only [Memory.wf, Memory.write]
    split
    · rename_i hlt
      refine List.pairwise_cons.2 ⟨fun c hc => ?_, h⟩
      rcases List.mem_cons.1 hc with rfl | hc
      · exact hlt
      · exact Nat.lt_trans hlt (hd c hc)
    · split
      · rename_i heq
        subst heq
        exact List.pairwise_cons.2 ⟨hd, hr⟩
      · refine List.pairwise_cons.2 ⟨fun c hc => ?_, ih hr⟩
        rcases Memory.mem_write hc with rfl | hc
        · show d < a
          omega
        · exact hd c hc

/-- What the contents made of a byte sequence hold. -/
theorem Memory.read_ofBytes (k : Nat) (f : List Byte) (a : Nat) :
    (Memory.ofBytes k f).read a = if k ≤ a then f[a - k]? else none := by
  induction f generalizing k with
  | nil => simp [Memory.ofBytes]
  | cons b r ih =>
    simp only [Memory.ofBytes, Memory.read, ih]
    by_cases h : a = k
    · simp [h]
    · by_cases h2 : k ≤ a
      · have h3 : a - k = (a - (k + 1)) + 1 := by omega
        have h4 : k + 1 ≤ a := by omega
        simp [h, h2, h3, h4]
      · have h4 : ¬k + 1 ≤ a := by omega
        simp [h, h2, h4]

/-- The contents made of a byte sequence lie within its range. -/
theorem Memory.mem_ofBytes {k : Nat} {f : List Byte} {c : Host.Cell}
    (h : c ∈ Memory.ofBytes k f) : k ≤ c.1 ∧ c.1 < k + f.length := by
  induction f generalizing k with
  | nil => simp [Memory.ofBytes] at h
  | cons b r ih =>
    simp only [Memory.ofBytes, List.mem_cons] at h
    rcases h with rfl | h
    · simp
    · have := ih h
      simp only [List.length_cons]
      omega

/-- The contents made of a byte sequence are in canonical form. -/
theorem Memory.ofBytes_wf (k : Nat) (f : List Byte) : (Memory.ofBytes k f).wf := by
  induction f generalizing k with
  | nil => exact List.Pairwise.nil
  | cons b r ih =>
    refine List.pairwise_cons.2 ⟨fun c hc => ?_, ih _⟩
    have := Memory.mem_ofBytes hc
    show k < c.1
    omega

/-! ### The input a command reads -/

@[simp] theorem State.input_length (s : State) : s.input.length = s.ilen.toNat := by
  simp [State.input]

/-- Byte `i` of what a command reads is `IBUF[i]`. -/
theorem State.input_get (s : State) {i : Nat} (h : i < s.ilen.toNat) :
    s.input[i]? = some (s.inByte i) := by
  simp [State.input, h]

/-! ### The packet a build command leaves -/

/-- What the host finds in `OBUF` after a build command. -/
theorem State.outByte_setPacket (s : State) {f : List Byte} (h : f.length < 65536) (i : Nat) :
    (s.setPacket f).outByte i = f[i]? := by
  have hm : f.length % 65536 = f.length := Nat.mod_eq_of_lt h
  by_cases hi : i < f.length
  · simp [State.outByte, State.setPacket, Memory.read_ofBytes, hm, hi]
  · simp [State.outByte, State.setPacket, hm, hi, Memory.unlisted]

/-- The packet a build command leaves is the frame, every byte of it. -/
theorem State.packet_setPacket (s : State) {f : List Byte} (h : f.length < 65536) :
    (s.setPacket f).packet = f.map some := by
  have hm : f.length % 65536 = f.length := Nat.mod_eq_of_lt h
  have hl : (s.setPacket f).olen.toNat = f.length := by simp [State.setPacket, hm]
  apply List.ext_getElem?
  intro i
  simp only [State.packet, List.getElem?_map, hl]
  by_cases hi : i < f.length
  · simp [hi, State.outByte_setPacket s h]
  · simp [hi]

end Sys2Proof.Machine
end

