-- ==== Sys2Proof/Laws/Params.lean ====
section
/-! SUPPORT. The parameters of the instance meet every constraint of spec/00_scope.md R5, R6 and R9,
whatever the opaque constants are. -/

namespace Sys2Proof

theorem Config.icmpData_length : Config.icmpData.length = Config.icmpLen := by
  simp [Config.icmpData]

theorem Config.params_wf : Config.params.wf := by
  have h1 := Config.ibufSlack.isLt
  have h2 := Config.obufSlack.isLt
  simp only [Params.wf, Config.params, Config.icmpData_length, Config.icmpLen, Config.ibufSize,
    Config.obufSize]
  omega

end Sys2Proof
end

