-- ==== Sys2Proof/Laws/PerInstr.lean ====
section
/-! SUPPORT. Statements about every command, one lemma per constructor. -/

/-- The command's opcode selects its own row of the opcode map and no other (spec/30_encoding.md R72). -/
def Sys2Proof.Laws.OpcodeRows.Statement (i : Sys2Proof.Instr) : Prop :=
  (Sys2Proof.opcodeMap.filter (·.selects (Sys2Proof.encode i))).map (·.instr) = [i]

theorem Sys2Proof.Laws.OpcodeRows.magic :
    Sys2Proof.Laws.OpcodeRows.Statement .magic := rfl
theorem Sys2Proof.Laws.OpcodeRows.magics :
    Sys2Proof.Laws.OpcodeRows.Statement .magics := rfl
theorem Sys2Proof.Laws.OpcodeRows.arpreq :
    Sys2Proof.Laws.OpcodeRows.Statement .arpreq := rfl
theorem Sys2Proof.Laws.OpcodeRows.icmpreq :
    Sys2Proof.Laws.OpcodeRows.Statement .icmpreq := rfl
theorem Sys2Proof.Laws.OpcodeRows.cksum :
    Sys2Proof.Laws.OpcodeRows.Statement .cksum := rfl
theorem Sys2Proof.Laws.OpcodeRows.classify :
    Sys2Proof.Laws.OpcodeRows.Statement .classify := rfl
end

