-- ==== Sys2Proof/Laws/Run.lean ====
section
/-! SUPPORT. A run of the machine, one step at a time: what `Host.Core.run` does for each outcome of
`step` (spec/00_scope.md R13). -/

namespace Sys2Proof.Machine

/-- A run of no steps. -/
theorem core_run_zero (s : State) : Host.Core.run core 0 s = .next s := rfl

/-- A run of one more step, by the outcome of the step. -/
theorem core_run_succ (n : Nat) (s : core.State) :
    Host.Core.run core (n + 1) s =
      (match core.step s with
        | .next s' => Host.Core.run core n s'
        | .fault r => .fault r
        | .refused r => .refused r) := by
  simp only [Host.Core.run]
  cases core.step s <;> rfl

/-- After a step that gives a next state the run goes on from it. -/
theorem core_run_next {n : Nat} {s s' : State} (h : step s = .next s') :
    Host.Core.run core (n + 1) s = Host.Core.run core n s' := by
  refine (core_run_succ n s).trans ?_
  show (match step s with
        | .next s' => Host.Core.run core n s'
        | .fault r => .fault r
        | .refused r => .refused r) = _
  rw [h]

/-- A step that is refused ends the run. -/
theorem core_run_refused {n : Nat} {s : State} {r : Refusal} (h : step s = .refused r) :
    Host.Core.run core (n + 1) s = .refused r := by
  refine (core_run_succ n s).trans ?_
  show (match step s with
        | .next s' => Host.Core.run core n s'
        | .fault r => .fault r
        | .refused r => .refused r) = _
  rw [h]

end Sys2Proof.Machine
end

