-- ==== Sys2Proof/Laws/State.lean ====
section
/-! SUPPORT. One lemma per field of State and per update: what the update leaves in the field. Each is
true by rfl, and later proofs unfold no record update. -/

namespace Sys2Proof.Machine.State

/-! ### setStatus -/

section
variable (s : State) (c : StatusCode)
@[simp] theorem setStatus_status : (s.setStatus c).status = statusBits c := rfl
@[simp] theorem setStatus_tgt : (s.setStatus c).tgt = s.tgt := rfl
@[simp] theorem setStatus_lhw : (s.setStatus c).lhw = s.lhw := rfl
@[simp] theorem setStatus_lip : (s.setStatus c).lip = s.lip := rfl
@[simp] theorem setStatus_ilen : (s.setStatus c).ilen = s.ilen := rfl
@[simp] theorem setStatus_olen : (s.setStatus c).olen = s.olen := rfl
@[simp] theorem setStatus_cksum : (s.setStatus c).cksum = s.cksum := rfl
@[simp] theorem setStatus_ckfold : (s.setStatus c).ckfold = s.ckfold := rfl
@[simp] theorem setStatus_matchReg : (s.setStatus c).matchReg = s.matchReg := rfl
@[simp] theorem setStatus_aHtype : (s.setStatus c).aHtype = s.aHtype := rfl
@[simp] theorem setStatus_aPtype : (s.setStatus c).aPtype = s.aPtype := rfl
@[simp] theorem setStatus_aHlen : (s.setStatus c).aHlen = s.aHlen := rfl
@[simp] theorem setStatus_aPlen : (s.setStatus c).aPlen = s.aPlen := rfl
@[simp] theorem setStatus_aOper : (s.setStatus c).aOper = s.aOper := rfl
@[simp] theorem setStatus_aSha : (s.setStatus c).aSha = s.aSha := rfl
@[simp] theorem setStatus_aSpa : (s.setStatus c).aSpa = s.aSpa := rfl
@[simp] theorem setStatus_aTha : (s.setStatus c).aTha = s.aTha := rfl
@[simp] theorem setStatus_aTpa : (s.setStatus c).aTpa = s.aTpa := rfl
@[simp] theorem setStatus_rIcmpType : (s.setStatus c).rIcmpType = s.rIcmpType := rfl
@[simp] theorem setStatus_rSrcHw : (s.setStatus c).rSrcHw = s.rSrcHw := rfl
@[simp] theorem setStatus_ibuf : (s.setStatus c).ibuf = s.ibuf := rfl
@[simp] theorem setStatus_obuf : (s.setStatus c).obuf = s.obuf := rfl
@[simp] theorem setStatus_pending : (s.setStatus c).pending = s.pending := rfl
@[simp] theorem setStatus_observed : (s.setStatus c).observed = s.observed := rfl
@[simp] theorem setStatus_resets : (s.setStatus c).resets = s.resets := rfl
@[simp] theorem setStatus_draws : (s.setStatus c).draws = s.draws := rfl
end

/-! ### setMatch -/

section
variable (s : State) (k : MatchKind)
@[simp] theorem setMatch_status : (s.setMatch k).status = s.status := rfl
@[simp] theorem setMatch_tgt : (s.setMatch k).tgt = s.tgt := rfl
@[simp] theorem setMatch_lhw : (s.setMatch k).lhw = s.lhw := rfl
@[simp] theorem setMatch_lip : (s.setMatch k).lip = s.lip := rfl
@[simp] theorem setMatch_ilen : (s.setMatch k).ilen = s.ilen := rfl
@[simp] theorem setMatch_olen : (s.setMatch k).olen = s.olen := rfl
@[simp] theorem setMatch_cksum : (s.setMatch k).cksum = s.cksum := rfl
@[simp] theorem setMatch_ckfold : (s.setMatch k).ckfold = s.ckfold := rfl
@[simp] theorem setMatch_matchReg : (s.setMatch k).matchReg = matchBits k := rfl
@[simp] theorem setMatch_aHtype : (s.setMatch k).aHtype = s.aHtype := rfl
@[simp] theorem setMatch_aPtype : (s.setMatch k).aPtype = s.aPtype := rfl
@[simp] theorem setMatch_aHlen : (s.setMatch k).aHlen = s.aHlen := rfl
@[simp] theorem setMatch_aPlen : (s.setMatch k).aPlen = s.aPlen := rfl
@[simp] theorem setMatch_aOper : (s.setMatch k).aOper = s.aOper := rfl
@[simp] theorem setMatch_aSha : (s.setMatch k).aSha = s.aSha := rfl
@[simp] theorem setMatch_aSpa : (s.setMatch k).aSpa = s.aSpa := rfl
@[simp] theorem setMatch_aTha : (s.setMatch k).aTha = s.aTha := rfl
@[simp] theorem setMatch_aTpa : (s.setMatch k).aTpa = s.aTpa := rfl
@[simp] theorem setMatch_rIcmpType : (s.setMatch k).rIcmpType = s.rIcmpType := rfl
@[simp] theorem setMatch_rSrcHw : (s.setMatch k).rSrcHw = s.rSrcHw := rfl
@[simp] theorem setMatch_ibuf : (s.setMatch k).ibuf = s.ibuf := rfl
@[simp] theorem setMatch_obuf : (s.setMatch k).obuf = s.obuf := rfl
@[simp] theorem setMatch_pending : (s.setMatch k).pending = s.pending := rfl
@[simp] theorem setMatch_observed : (s.setMatch k).observed = s.observed := rfl
@[simp] theorem setMatch_resets : (s.setMatch k).resets = s.resets := rfl
@[simp] theorem setMatch_draws : (s.setMatch k).draws = s.draws := rfl
end

/-! ### setIbuf -/

section
variable (s : State) (m : Memory)
@[simp] theorem setIbuf_status : (s.setIbuf m).status = s.status := rfl
@[simp] theorem setIbuf_tgt : (s.setIbuf m).tgt = s.tgt := rfl
@[simp] theorem setIbuf_lhw : (s.setIbuf m).lhw = s.lhw := rfl
@[simp] theorem setIbuf_lip : (s.setIbuf m).lip = s.lip := rfl
@[simp] theorem setIbuf_ilen : (s.setIbuf m).ilen = s.ilen := rfl
@[simp] theorem setIbuf_olen : (s.setIbuf m).olen = s.olen := rfl
@[simp] theorem setIbuf_cksum : (s.setIbuf m).cksum = s.cksum := rfl
@[simp] theorem setIbuf_ckfold : (s.setIbuf m).ckfold = s.ckfold := rfl
@[simp] theorem setIbuf_matchReg : (s.setIbuf m).matchReg = s.matchReg := rfl
@[simp] theorem setIbuf_aHtype : (s.setIbuf m).aHtype = s.aHtype := rfl
@[simp] theorem setIbuf_aPtype : (s.setIbuf m).aPtype = s.aPtype := rfl
@[simp] theorem setIbuf_aHlen : (s.setIbuf m).aHlen = s.aHlen := rfl
@[simp] theorem setIbuf_aPlen : (s.setIbuf m).aPlen = s.aPlen := rfl
@[simp] theorem setIbuf_aOper : (s.setIbuf m).aOper = s.aOper := rfl
@[simp] theorem setIbuf_aSha : (s.setIbuf m).aSha = s.aSha := rfl
@[simp] theorem setIbuf_aSpa : (s.setIbuf m).aSpa = s.aSpa := rfl
@[simp] theorem setIbuf_aTha : (s.setIbuf m).aTha = s.aTha := rfl
@[simp] theorem setIbuf_aTpa : (s.setIbuf m).aTpa = s.aTpa := rfl
@[simp] theorem setIbuf_rIcmpType : (s.setIbuf m).rIcmpType = s.rIcmpType := rfl
@[simp] theorem setIbuf_rSrcHw : (s.setIbuf m).rSrcHw = s.rSrcHw := rfl
@[simp] theorem setIbuf_ibuf : (s.setIbuf m).ibuf = m := rfl
@[simp] theorem setIbuf_obuf : (s.setIbuf m).obuf = s.obuf := rfl
@[simp] theorem setIbuf_pending : (s.setIbuf m).pending = s.pending := rfl
@[simp] theorem setIbuf_observed : (s.setIbuf m).observed = s.observed := rfl
@[simp] theorem setIbuf_resets : (s.setIbuf m).resets = s.resets := rfl
@[simp] theorem setIbuf_draws : (s.setIbuf m).draws = s.draws := rfl
end

/-! ### setPacket -/

section
variable (s : State) (f : List Byte)
@[simp] theorem setPacket_status : (s.setPacket f).status = s.status := rfl
@[simp] theorem setPacket_tgt : (s.setPacket f).tgt = s.tgt := rfl
@[simp] theorem setPacket_lhw : (s.setPacket f).lhw = s.lhw := rfl
@[simp] theorem setPacket_lip : (s.setPacket f).lip = s.lip := rfl
@[simp] theorem setPacket_ilen : (s.setPacket f).ilen = s.ilen := rfl
@[simp] theorem setPacket_olen : (s.setPacket f).olen = BitVec.ofNat 16 f.length := rfl
@[simp] theorem setPacket_cksum : (s.setPacket f).cksum = s.cksum := rfl
@[simp] theorem setPacket_ckfold : (s.setPacket f).ckfold = s.ckfold := rfl
@[simp] theorem setPacket_matchReg : (s.setPacket f).matchReg = s.matchReg := rfl
@[simp] theorem setPacket_aHtype : (s.setPacket f).aHtype = s.aHtype := rfl
@[simp] theorem setPacket_aPtype : (s.setPacket f).aPtype = s.aPtype := rfl
@[simp] theorem setPacket_aHlen : (s.setPacket f).aHlen = s.aHlen := rfl
@[simp] theorem setPacket_aPlen : (s.setPacket f).aPlen = s.aPlen := rfl
@[simp] theorem setPacket_aOper : (s.setPacket f).aOper = s.aOper := rfl
@[simp] theorem setPacket_aSha : (s.setPacket f).aSha = s.aSha := rfl
@[simp] theorem setPacket_aSpa : (s.setPacket f).aSpa = s.aSpa := rfl
@[simp] theorem setPacket_aTha : (s.setPacket f).aTha = s.aTha := rfl
@[simp] theorem setPacket_aTpa : (s.setPacket f).aTpa = s.aTpa := rfl
@[simp] theorem setPacket_rIcmpType : (s.setPacket f).rIcmpType = s.rIcmpType := rfl
@[simp] theorem setPacket_rSrcHw : (s.setPacket f).rSrcHw = s.rSrcHw := rfl
@[simp] theorem setPacket_ibuf : (s.setPacket f).ibuf = s.ibuf := rfl
@[simp] theorem setPacket_obuf : (s.setPacket f).obuf = Memory.ofBytes 0 f := rfl
@[simp] theorem setPacket_pending : (s.setPacket f).pending = s.pending := rfl
@[simp] theorem setPacket_observed : (s.setPacket f).observed = s.observed := rfl
@[simp] theorem setPacket_resets : (s.setPacket f).resets = s.resets := rfl
@[simp] theorem setPacket_draws : (s.setPacket f).draws = s.draws := rfl
end

/-! ### setTgt -/

section
variable (s : State) (a : HwAddr)
@[simp] theorem setTgt_status : (s.setTgt a).status = s.status := rfl
@[simp] theorem setTgt_tgt : (s.setTgt a).tgt = a := rfl
@[simp] theorem setTgt_lhw : (s.setTgt a).lhw = s.lhw := rfl
@[simp] theorem setTgt_lip : (s.setTgt a).lip = s.lip := rfl
@[simp] theorem setTgt_ilen : (s.setTgt a).ilen = s.ilen := rfl
@[simp] theorem setTgt_olen : (s.setTgt a).olen = s.olen := rfl
@[simp] theorem setTgt_cksum : (s.setTgt a).cksum = s.cksum := rfl
@[simp] theorem setTgt_ckfold : (s.setTgt a).ckfold = s.ckfold := rfl
@[simp] theorem setTgt_matchReg : (s.setTgt a).matchReg = s.matchReg := rfl
@[simp] theorem setTgt_aHtype : (s.setTgt a).aHtype = s.aHtype := rfl
@[simp] theorem setTgt_aPtype : (s.setTgt a).aPtype = s.aPtype := rfl
@[simp] theorem setTgt_aHlen : (s.setTgt a).aHlen = s.aHlen := rfl
@[simp] theorem setTgt_aPlen : (s.setTgt a).aPlen = s.aPlen := rfl
@[simp] theorem setTgt_aOper : (s.setTgt a).aOper = s.aOper := rfl
@[simp] theorem setTgt_aSha : (s.setTgt a).aSha = s.aSha := rfl
@[simp] theorem setTgt_aSpa : (s.setTgt a).aSpa = s.aSpa := rfl
@[simp] theorem setTgt_aTha : (s.setTgt a).aTha = s.aTha := rfl
@[simp] theorem setTgt_aTpa : (s.setTgt a).aTpa = s.aTpa := rfl
@[simp] theorem setTgt_rIcmpType : (s.setTgt a).rIcmpType = s.rIcmpType := rfl
@[simp] theorem setTgt_rSrcHw : (s.setTgt a).rSrcHw = s.rSrcHw := rfl
@[simp] theorem setTgt_ibuf : (s.setTgt a).ibuf = s.ibuf := rfl
@[simp] theorem setTgt_obuf : (s.setTgt a).obuf = s.obuf := rfl
@[simp] theorem setTgt_pending : (s.setTgt a).pending = s.pending := rfl
@[simp] theorem setTgt_observed : (s.setTgt a).observed = s.observed := rfl
@[simp] theorem setTgt_resets : (s.setTgt a).resets = s.resets := rfl
@[simp] theorem setTgt_draws : (s.setTgt a).draws = s.draws := rfl
end

/-! ### setLhw -/

section
variable (s : State) (a : HwAddr)
@[simp] theorem setLhw_status : (s.setLhw a).status = s.status := rfl
@[simp] theorem setLhw_tgt : (s.setLhw a).tgt = s.tgt := rfl
@[simp] theorem setLhw_lhw : (s.setLhw a).lhw = a := rfl
@[simp] theorem setLhw_lip : (s.setLhw a).lip = s.lip := rfl
@[simp] theorem setLhw_ilen : (s.setLhw a).ilen = s.ilen := rfl
@[simp] theorem setLhw_olen : (s.setLhw a).olen = s.olen := rfl
@[simp] theorem setLhw_cksum : (s.setLhw a).cksum = s.cksum := rfl
@[simp] theorem setLhw_ckfold : (s.setLhw a).ckfold = s.ckfold := rfl
@[simp] theorem setLhw_matchReg : (s.setLhw a).matchReg = s.matchReg := rfl
@[simp] theorem setLhw_aHtype : (s.setLhw a).aHtype = s.aHtype := rfl
@[simp] theorem setLhw_aPtype : (s.setLhw a).aPtype = s.aPtype := rfl
@[simp] theorem setLhw_aHlen : (s.setLhw a).aHlen = s.aHlen := rfl
@[simp] theorem setLhw_aPlen : (s.setLhw a).aPlen = s.aPlen := rfl
@[simp] theorem setLhw_aOper : (s.setLhw a).aOper = s.aOper := rfl
@[simp] theorem setLhw_aSha : (s.setLhw a).aSha = s.aSha := rfl
@[simp] theorem setLhw_aSpa : (s.setLhw a).aSpa = s.aSpa := rfl
@[simp] theorem setLhw_aTha : (s.setLhw a).aTha = s.aTha := rfl
@[simp] theorem setLhw_aTpa : (s.setLhw a).aTpa = s.aTpa := rfl
@[simp] theorem setLhw_rIcmpType : (s.setLhw a).rIcmpType = s.rIcmpType := rfl
@[simp] theorem setLhw_rSrcHw : (s.setLhw a).rSrcHw = s.rSrcHw := rfl
@[simp] theorem setLhw_ibuf : (s.setLhw a).ibuf = s.ibuf := rfl
@[simp] theorem setLhw_obuf : (s.setLhw a).obuf = s.obuf := rfl
@[simp] theorem setLhw_pending : (s.setLhw a).pending = s.pending := rfl
@[simp] theorem setLhw_observed : (s.setLhw a).observed = s.observed := rfl
@[simp] theorem setLhw_resets : (s.setLhw a).resets = s.resets := rfl
@[simp] theorem setLhw_draws : (s.setLhw a).draws = s.draws := rfl
end

/-! ### setLip -/

section
variable (s : State) (a : IpAddr)
@[simp] theorem setLip_status : (s.setLip a).status = s.status := rfl
@[simp] theorem setLip_tgt : (s.setLip a).tgt = s.tgt := rfl
@[simp] theorem setLip_lhw : (s.setLip a).lhw = s.lhw := rfl
@[simp] theorem setLip_lip : (s.setLip a).lip = a := rfl
@[simp] theorem setLip_ilen : (s.setLip a).ilen = s.ilen := rfl
@[simp] theorem setLip_olen : (s.setLip a).olen = s.olen := rfl
@[simp] theorem setLip_cksum : (s.setLip a).cksum = s.cksum := rfl
@[simp] theorem setLip_ckfold : (s.setLip a).ckfold = s.ckfold := rfl
@[simp] theorem setLip_matchReg : (s.setLip a).matchReg = s.matchReg := rfl
@[simp] theorem setLip_aHtype : (s.setLip a).aHtype = s.aHtype := rfl
@[simp] theorem setLip_aPtype : (s.setLip a).aPtype = s.aPtype := rfl
@[simp] theorem setLip_aHlen : (s.setLip a).aHlen = s.aHlen := rfl
@[simp] theorem setLip_aPlen : (s.setLip a).aPlen = s.aPlen := rfl
@[simp] theorem setLip_aOper : (s.setLip a).aOper = s.aOper := rfl
@[simp] theorem setLip_aSha : (s.setLip a).aSha = s.aSha := rfl
@[simp] theorem setLip_aSpa : (s.setLip a).aSpa = s.aSpa := rfl
@[simp] theorem setLip_aTha : (s.setLip a).aTha = s.aTha := rfl
@[simp] theorem setLip_aTpa : (s.setLip a).aTpa = s.aTpa := rfl
@[simp] theorem setLip_rIcmpType : (s.setLip a).rIcmpType = s.rIcmpType := rfl
@[simp] theorem setLip_rSrcHw : (s.setLip a).rSrcHw = s.rSrcHw := rfl
@[simp] theorem setLip_ibuf : (s.setLip a).ibuf = s.ibuf := rfl
@[simp] theorem setLip_obuf : (s.setLip a).obuf = s.obuf := rfl
@[simp] theorem setLip_pending : (s.setLip a).pending = s.pending := rfl
@[simp] theorem setLip_observed : (s.setLip a).observed = s.observed := rfl
@[simp] theorem setLip_resets : (s.setLip a).resets = s.resets := rfl
@[simp] theorem setLip_draws : (s.setLip a).draws = s.draws := rfl
end

/-! ### setIlen -/

section
variable (s : State) (n : Word)
@[simp] theorem setIlen_status : (s.setIlen n).status = s.status := rfl
@[simp] theorem setIlen_tgt : (s.setIlen n).tgt = s.tgt := rfl
@[simp] theorem setIlen_lhw : (s.setIlen n).lhw = s.lhw := rfl
@[simp] theorem setIlen_lip : (s.setIlen n).lip = s.lip := rfl
@[simp] theorem setIlen_ilen : (s.setIlen n).ilen = n := rfl
@[simp] theorem setIlen_olen : (s.setIlen n).olen = s.olen := rfl
@[simp] theorem setIlen_cksum : (s.setIlen n).cksum = s.cksum := rfl
@[simp] theorem setIlen_ckfold : (s.setIlen n).ckfold = s.ckfold := rfl
@[simp] theorem setIlen_matchReg : (s.setIlen n).matchReg = s.matchReg := rfl
@[simp] theorem setIlen_aHtype : (s.setIlen n).aHtype = s.aHtype := rfl
@[simp] theorem setIlen_aPtype : (s.setIlen n).aPtype = s.aPtype := rfl
@[simp] theorem setIlen_aHlen : (s.setIlen n).aHlen = s.aHlen := rfl
@[simp] theorem setIlen_aPlen : (s.setIlen n).aPlen = s.aPlen := rfl
@[simp] theorem setIlen_aOper : (s.setIlen n).aOper = s.aOper := rfl
@[simp] theorem setIlen_aSha : (s.setIlen n).aSha = s.aSha := rfl
@[simp] theorem setIlen_aSpa : (s.setIlen n).aSpa = s.aSpa := rfl
@[simp] theorem setIlen_aTha : (s.setIlen n).aTha = s.aTha := rfl
@[simp] theorem setIlen_aTpa : (s.setIlen n).aTpa = s.aTpa := rfl
@[simp] theorem setIlen_rIcmpType : (s.setIlen n).rIcmpType = s.rIcmpType := rfl
@[simp] theorem setIlen_rSrcHw : (s.setIlen n).rSrcHw = s.rSrcHw := rfl
@[simp] theorem setIlen_ibuf : (s.setIlen n).ibuf = s.ibuf := rfl
@[simp] theorem setIlen_obuf : (s.setIlen n).obuf = s.obuf := rfl
@[simp] theorem setIlen_pending : (s.setIlen n).pending = s.pending := rfl
@[simp] theorem setIlen_observed : (s.setIlen n).observed = s.observed := rfl
@[simp] theorem setIlen_resets : (s.setIlen n).resets = s.resets := rfl
@[simp] theorem setIlen_draws : (s.setIlen n).draws = s.draws := rfl
end

/-! ### setSums -/

section
variable (s : State) (f : Word)
@[simp] theorem setSums_status : (s.setSums f).status = s.status := rfl
@[simp] theorem setSums_tgt : (s.setSums f).tgt = s.tgt := rfl
@[simp] theorem setSums_lhw : (s.setSums f).lhw = s.lhw := rfl
@[simp] theorem setSums_lip : (s.setSums f).lip = s.lip := rfl
@[simp] theorem setSums_ilen : (s.setSums f).ilen = s.ilen := rfl
@[simp] theorem setSums_olen : (s.setSums f).olen = s.olen := rfl
@[simp] theorem setSums_cksum : (s.setSums f).cksum = ~~~f := rfl
@[simp] theorem setSums_ckfold : (s.setSums f).ckfold = f := rfl
@[simp] theorem setSums_matchReg : (s.setSums f).matchReg = s.matchReg := rfl
@[simp] theorem setSums_aHtype : (s.setSums f).aHtype = s.aHtype := rfl
@[simp] theorem setSums_aPtype : (s.setSums f).aPtype = s.aPtype := rfl
@[simp] theorem setSums_aHlen : (s.setSums f).aHlen = s.aHlen := rfl
@[simp] theorem setSums_aPlen : (s.setSums f).aPlen = s.aPlen := rfl
@[simp] theorem setSums_aOper : (s.setSums f).aOper = s.aOper := rfl
@[simp] theorem setSums_aSha : (s.setSums f).aSha = s.aSha := rfl
@[simp] theorem setSums_aSpa : (s.setSums f).aSpa = s.aSpa := rfl
@[simp] theorem setSums_aTha : (s.setSums f).aTha = s.aTha := rfl
@[simp] theorem setSums_aTpa : (s.setSums f).aTpa = s.aTpa := rfl
@[simp] theorem setSums_rIcmpType : (s.setSums f).rIcmpType = s.rIcmpType := rfl
@[simp] theorem setSums_rSrcHw : (s.setSums f).rSrcHw = s.rSrcHw := rfl
@[simp] theorem setSums_ibuf : (s.setSums f).ibuf = s.ibuf := rfl
@[simp] theorem setSums_obuf : (s.setSums f).obuf = s.obuf := rfl
@[simp] theorem setSums_pending : (s.setSums f).pending = s.pending := rfl
@[simp] theorem setSums_observed : (s.setSums f).observed = s.observed := rfl
@[simp] theorem setSums_resets : (s.setSums f).resets = s.resets := rfl
@[simp] theorem setSums_draws : (s.setSums f).draws = s.draws := rfl
end

/-! ### setArp -/

section
variable (s : State) (m : ArpMessage)
@[simp] theorem setArp_status : (s.setArp m).status = s.status := rfl
@[simp] theorem setArp_tgt : (s.setArp m).tgt = s.tgt := rfl
@[simp] theorem setArp_lhw : (s.setArp m).lhw = s.lhw := rfl
@[simp] theorem setArp_lip : (s.setArp m).lip = s.lip := rfl
@[simp] theorem setArp_ilen : (s.setArp m).ilen = s.ilen := rfl
@[simp] theorem setArp_olen : (s.setArp m).olen = s.olen := rfl
@[simp] theorem setArp_cksum : (s.setArp m).cksum = s.cksum := rfl
@[simp] theorem setArp_ckfold : (s.setArp m).ckfold = s.ckfold := rfl
@[simp] theorem setArp_matchReg : (s.setArp m).matchReg = s.matchReg := rfl
@[simp] theorem setArp_aHtype : (s.setArp m).aHtype = m.htype := rfl
@[simp] theorem setArp_aPtype : (s.setArp m).aPtype = m.ptype := rfl
@[simp] theorem setArp_aHlen : (s.setArp m).aHlen = m.hlen := rfl
@[simp] theorem setArp_aPlen : (s.setArp m).aPlen = m.plen := rfl
@[simp] theorem setArp_aOper : (s.setArp m).aOper = m.oper := rfl
@[simp] theorem setArp_aSha : (s.setArp m).aSha = m.sha := rfl
@[simp] theorem setArp_aSpa : (s.setArp m).aSpa = m.spa := rfl
@[simp] theorem setArp_aTha : (s.setArp m).aTha = m.tha := rfl
@[simp] theorem setArp_aTpa : (s.setArp m).aTpa = m.tpa := rfl
@[simp] theorem setArp_rIcmpType : (s.setArp m).rIcmpType = s.rIcmpType := rfl
@[simp] theorem setArp_rSrcHw : (s.setArp m).rSrcHw = s.rSrcHw := rfl
@[simp] theorem setArp_ibuf : (s.setArp m).ibuf = s.ibuf := rfl
@[simp] theorem setArp_obuf : (s.setArp m).obuf = s.obuf := rfl
@[simp] theorem setArp_pending : (s.setArp m).pending = s.pending := rfl
@[simp] theorem setArp_observed : (s.setArp m).observed = s.observed := rfl
@[simp] theorem setArp_resets : (s.setArp m).resets = s.resets := rfl
@[simp] theorem setArp_draws : (s.setArp m).draws = s.draws := rfl
end

/-! ### setIcmp -/

section
variable (s : State) (t : Byte) (src : HwAddr)
@[simp] theorem setIcmp_status : (s.setIcmp t src).status = s.status := rfl
@[simp] theorem setIcmp_tgt : (s.setIcmp t src).tgt = s.tgt := rfl
@[simp] theorem setIcmp_lhw : (s.setIcmp t src).lhw = s.lhw := rfl
@[simp] theorem setIcmp_lip : (s.setIcmp t src).lip = s.lip := rfl
@[simp] theorem setIcmp_ilen : (s.setIcmp t src).ilen = s.ilen := rfl
@[simp] theorem setIcmp_olen : (s.setIcmp t src).olen = s.olen := rfl
@[simp] theorem setIcmp_cksum : (s.setIcmp t src).cksum = s.cksum := rfl
@[simp] theorem setIcmp_ckfold : (s.setIcmp t src).ckfold = s.ckfold := rfl
@[simp] theorem setIcmp_matchReg : (s.setIcmp t src).matchReg = s.matchReg := rfl
@[simp] theorem setIcmp_aHtype : (s.setIcmp t src).aHtype = s.aHtype := rfl
@[simp] theorem setIcmp_aPtype : (s.setIcmp t src).aPtype = s.aPtype := rfl
@[simp] theorem setIcmp_aHlen : (s.setIcmp t src).aHlen = s.aHlen := rfl
@[simp] theorem setIcmp_aPlen : (s.setIcmp t src).aPlen = s.aPlen := rfl
@[simp] theorem setIcmp_aOper : (s.setIcmp t src).aOper = s.aOper := rfl
@[simp] theorem setIcmp_aSha : (s.setIcmp t src).aSha = s.aSha := rfl
@[simp] theorem setIcmp_aSpa : (s.setIcmp t src).aSpa = s.aSpa := rfl
@[simp] theorem setIcmp_aTha : (s.setIcmp t src).aTha = s.aTha := rfl
@[simp] theorem setIcmp_aTpa : (s.setIcmp t src).aTpa = s.aTpa := rfl
@[simp] theorem setIcmp_rIcmpType : (s.setIcmp t src).rIcmpType = t := rfl
@[simp] theorem setIcmp_rSrcHw : (s.setIcmp t src).rSrcHw = src := rfl
@[simp] theorem setIcmp_ibuf : (s.setIcmp t src).ibuf = s.ibuf := rfl
@[simp] theorem setIcmp_obuf : (s.setIcmp t src).obuf = s.obuf := rfl
@[simp] theorem setIcmp_pending : (s.setIcmp t src).pending = s.pending := rfl
@[simp] theorem setIcmp_observed : (s.setIcmp t src).observed = s.observed := rfl
@[simp] theorem setIcmp_resets : (s.setIcmp t src).resets = s.resets := rfl
@[simp] theorem setIcmp_draws : (s.setIcmp t src).draws = s.draws := rfl
end

/-! ### setPending -/

section
variable (s : State) (ts : List Transaction)
@[simp] theorem setPending_status : (s.setPending ts).status = s.status := rfl
@[simp] theorem setPending_tgt : (s.setPending ts).tgt = s.tgt := rfl
@[simp] theorem setPending_lhw : (s.setPending ts).lhw = s.lhw := rfl
@[simp] theorem setPending_lip : (s.setPending ts).lip = s.lip := rfl
@[simp] theorem setPending_ilen : (s.setPending ts).ilen = s.ilen := rfl
@[simp] theorem setPending_olen : (s.setPending ts).olen = s.olen := rfl
@[simp] theorem setPending_cksum : (s.setPending ts).cksum = s.cksum := rfl
@[simp] theorem setPending_ckfold : (s.setPending ts).ckfold = s.ckfold := rfl
@[simp] theorem setPending_matchReg : (s.setPending ts).matchReg = s.matchReg := rfl
@[simp] theorem setPending_aHtype : (s.setPending ts).aHtype = s.aHtype := rfl
@[simp] theorem setPending_aPtype : (s.setPending ts).aPtype = s.aPtype := rfl
@[simp] theorem setPending_aHlen : (s.setPending ts).aHlen = s.aHlen := rfl
@[simp] theorem setPending_aPlen : (s.setPending ts).aPlen = s.aPlen := rfl
@[simp] theorem setPending_aOper : (s.setPending ts).aOper = s.aOper := rfl
@[simp] theorem setPending_aSha : (s.setPending ts).aSha = s.aSha := rfl
@[simp] theorem setPending_aSpa : (s.setPending ts).aSpa = s.aSpa := rfl
@[simp] theorem setPending_aTha : (s.setPending ts).aTha = s.aTha := rfl
@[simp] theorem setPending_aTpa : (s.setPending ts).aTpa = s.aTpa := rfl
@[simp] theorem setPending_rIcmpType : (s.setPending ts).rIcmpType = s.rIcmpType := rfl
@[simp] theorem setPending_rSrcHw : (s.setPending ts).rSrcHw = s.rSrcHw := rfl
@[simp] theorem setPending_ibuf : (s.setPending ts).ibuf = s.ibuf := rfl
@[simp] theorem setPending_obuf : (s.setPending ts).obuf = s.obuf := rfl
@[simp] theorem setPending_pending : (s.setPending ts).pending = ts := rfl
@[simp] theorem setPending_observed : (s.setPending ts).observed = s.observed := rfl
@[simp] theorem setPending_resets : (s.setPending ts).resets = s.resets := rfl
@[simp] theorem setPending_draws : (s.setPending ts).draws = s.draws := rfl
end

/-! ### observe -/

section
variable (s : State) (r : Reading)
@[simp] theorem observe_status : (s.observe r).status = s.status := rfl
@[simp] theorem observe_tgt : (s.observe r).tgt = s.tgt := rfl
@[simp] theorem observe_lhw : (s.observe r).lhw = s.lhw := rfl
@[simp] theorem observe_lip : (s.observe r).lip = s.lip := rfl
@[simp] theorem observe_ilen : (s.observe r).ilen = s.ilen := rfl
@[simp] theorem observe_olen : (s.observe r).olen = s.olen := rfl
@[simp] theorem observe_cksum : (s.observe r).cksum = s.cksum := rfl
@[simp] theorem observe_ckfold : (s.observe r).ckfold = s.ckfold := rfl
@[simp] theorem observe_matchReg : (s.observe r).matchReg = s.matchReg := rfl
@[simp] theorem observe_aHtype : (s.observe r).aHtype = s.aHtype := rfl
@[simp] theorem observe_aPtype : (s.observe r).aPtype = s.aPtype := rfl
@[simp] theorem observe_aHlen : (s.observe r).aHlen = s.aHlen := rfl
@[simp] theorem observe_aPlen : (s.observe r).aPlen = s.aPlen := rfl
@[simp] theorem observe_aOper : (s.observe r).aOper = s.aOper := rfl
@[simp] theorem observe_aSha : (s.observe r).aSha = s.aSha := rfl
@[simp] theorem observe_aSpa : (s.observe r).aSpa = s.aSpa := rfl
@[simp] theorem observe_aTha : (s.observe r).aTha = s.aTha := rfl
@[simp] theorem observe_aTpa : (s.observe r).aTpa = s.aTpa := rfl
@[simp] theorem observe_rIcmpType : (s.observe r).rIcmpType = s.rIcmpType := rfl
@[simp] theorem observe_rSrcHw : (s.observe r).rSrcHw = s.rSrcHw := rfl
@[simp] theorem observe_ibuf : (s.observe r).ibuf = s.ibuf := rfl
@[simp] theorem observe_obuf : (s.observe r).obuf = s.obuf := rfl
@[simp] theorem observe_pending : (s.observe r).pending = s.pending := rfl
@[simp] theorem observe_observed : (s.observe r).observed = s.observed ++ [r] := rfl
@[simp] theorem observe_resets : (s.observe r).resets = s.resets := rfl
@[simp] theorem observe_draws : (s.observe r).draws = s.draws := rfl
end

/-! ### countDraw -/

section
variable (s : State)
@[simp] theorem countDraw_status : (s.countDraw).status = s.status := rfl
@[simp] theorem countDraw_tgt : (s.countDraw).tgt = s.tgt := rfl
@[simp] theorem countDraw_lhw : (s.countDraw).lhw = s.lhw := rfl
@[simp] theorem countDraw_lip : (s.countDraw).lip = s.lip := rfl
@[simp] theorem countDraw_ilen : (s.countDraw).ilen = s.ilen := rfl
@[simp] theorem countDraw_olen : (s.countDraw).olen = s.olen := rfl
@[simp] theorem countDraw_cksum : (s.countDraw).cksum = s.cksum := rfl
@[simp] theorem countDraw_ckfold : (s.countDraw).ckfold = s.ckfold := rfl
@[simp] theorem countDraw_matchReg : (s.countDraw).matchReg = s.matchReg := rfl
@[simp] theorem countDraw_aHtype : (s.countDraw).aHtype = s.aHtype := rfl
@[simp] theorem countDraw_aPtype : (s.countDraw).aPtype = s.aPtype := rfl
@[simp] theorem countDraw_aHlen : (s.countDraw).aHlen = s.aHlen := rfl
@[simp] theorem countDraw_aPlen : (s.countDraw).aPlen = s.aPlen := rfl
@[simp] theorem countDraw_aOper : (s.countDraw).aOper = s.aOper := rfl
@[simp] theorem countDraw_aSha : (s.countDraw).aSha = s.aSha := rfl
@[simp] theorem countDraw_aSpa : (s.countDraw).aSpa = s.aSpa := rfl
@[simp] theorem countDraw_aTha : (s.countDraw).aTha = s.aTha := rfl
@[simp] theorem countDraw_aTpa : (s.countDraw).aTpa = s.aTpa := rfl
@[simp] theorem countDraw_rIcmpType : (s.countDraw).rIcmpType = s.rIcmpType := rfl
@[simp] theorem countDraw_rSrcHw : (s.countDraw).rSrcHw = s.rSrcHw := rfl
@[simp] theorem countDraw_ibuf : (s.countDraw).ibuf = s.ibuf := rfl
@[simp] theorem countDraw_obuf : (s.countDraw).obuf = s.obuf := rfl
@[simp] theorem countDraw_pending : (s.countDraw).pending = s.pending := rfl
@[simp] theorem countDraw_observed : (s.countDraw).observed = s.observed := rfl
@[simp] theorem countDraw_resets : (s.countDraw).resets = s.resets := rfl
@[simp] theorem countDraw_draws : (s.countDraw).draws = s.draws + 1 := rfl
end

/-! ### platformReset -/

section
variable (s : State)
@[simp] theorem platformReset_status : s.platformReset.status = State.reset.status := rfl
@[simp] theorem platformReset_tgt : s.platformReset.tgt = State.reset.tgt := rfl
@[simp] theorem platformReset_lhw : s.platformReset.lhw = State.reset.lhw := rfl
@[simp] theorem platformReset_lip : s.platformReset.lip = State.reset.lip := rfl
@[simp] theorem platformReset_ilen : s.platformReset.ilen = State.reset.ilen := rfl
@[simp] theorem platformReset_olen : s.platformReset.olen = State.reset.olen := rfl
@[simp] theorem platformReset_cksum : s.platformReset.cksum = State.reset.cksum := rfl
@[simp] theorem platformReset_ckfold : s.platformReset.ckfold = State.reset.ckfold := rfl
@[simp] theorem platformReset_matchReg : s.platformReset.matchReg = State.reset.matchReg := rfl
@[simp] theorem platformReset_aHtype : s.platformReset.aHtype = State.reset.aHtype := rfl
@[simp] theorem platformReset_aPtype : s.platformReset.aPtype = State.reset.aPtype := rfl
@[simp] theorem platformReset_aHlen : s.platformReset.aHlen = State.reset.aHlen := rfl
@[simp] theorem platformReset_aPlen : s.platformReset.aPlen = State.reset.aPlen := rfl
@[simp] theorem platformReset_aOper : s.platformReset.aOper = State.reset.aOper := rfl
@[simp] theorem platformReset_aSha : s.platformReset.aSha = State.reset.aSha := rfl
@[simp] theorem platformReset_aSpa : s.platformReset.aSpa = State.reset.aSpa := rfl
@[simp] theorem platformReset_aTha : s.platformReset.aTha = State.reset.aTha := rfl
@[simp] theorem platformReset_aTpa : s.platformReset.aTpa = State.reset.aTpa := rfl
@[simp] theorem platformReset_rIcmpType : s.platformReset.rIcmpType = State.reset.rIcmpType := rfl
@[simp] theorem platformReset_rSrcHw : s.platformReset.rSrcHw = State.reset.rSrcHw := rfl
@[simp] theorem platformReset_ibuf : s.platformReset.ibuf = State.reset.ibuf := rfl
@[simp] theorem platformReset_obuf : s.platformReset.obuf = State.reset.obuf := rfl
@[simp] theorem platformReset_pending : s.platformReset.pending = s.pending := rfl
@[simp] theorem platformReset_observed : s.platformReset.observed = s.observed := rfl
@[simp] theorem platformReset_resets : s.platformReset.resets = s.resets + 1 := rfl
@[simp] theorem platformReset_draws : s.platformReset.draws = s.draws := rfl
end

end Sys2Proof.Machine.State
end

