-- ==== Sys2Proof/Laws/Step.lean ====
section
/-! SUPPORT. What a command and a step can do, said once each: every command's next state as named
updates, every write to `CMD`, and a step with and without a transaction pending. -/

namespace Sys2Proof.Machine

/-! ### The commands -/

theorem exec_magic (s : State) :
    exec .magic s = .next ((s.setPacket (magicPacket s.tgt)).setStatus .ok) := rfl

theorem exec_magics_ok {s : State} {m : HwAddr} (h : parseAddress s.input = .ok m) :
    exec .magics s = .next (((s.setTgt m).setPacket (magicPacket m)).setStatus .ok) := by
  simp [exec, execMagics, h, complete]

theorem exec_magics_error {s : State} {e : CmdError} (h : parseAddress s.input = .error e) :
    exec .magics s = .next (s.setStatus (errorCode e)) := by
  simp [exec, execMagics, h, raise]

theorem exec_arpreq (s : State) :
    exec .arpreq s = .next ((s.setPacket (arpProbe s.tgt s.lhw s.lip)).setStatus .ok) := rfl

theorem exec_icmpreq (s : State) :
    exec .icmpreq s =
      .next ((s.setPacket (icmpProbe Config.params s.tgt s.lhw s.lip)).setStatus .ok) := rfl

theorem exec_cksum (s : State) :
    exec .cksum s = .next ((s.setSums (fold s.input)).setStatus .ok) := rfl

theorem exec_classify (s : State) :
    exec .classify s =
      .next (((s.setReport (classifyFrame s.input)).setMatch
        (verdictKind (classifyFrame s.input))).setStatus .ok) := rfl

/-- Parsing fails with one of the document's two kinds only (R171). -/
theorem parseAddress_error {s : List Byte} {e : CmdError} (h : parseAddress s = .error e) :
    e = .parseFailure ∨ e = .invalidAddressLength := by
  unfold parseAddress at h
  split at h <;> cases h
  · exact .inl rfl
  · exact .inr rfl

/-- Everything `MAGICS` can do. -/
theorem exec_magics_cases (s : State) :
    (∃ m, parseAddress s.input = .ok m ∧
      exec .magics s = .next (((s.setTgt m).setPacket (magicPacket m)).setStatus .ok)) ∨
    exec .magics s = .next (s.setStatus .parseFailure) ∨
    exec .magics s = .next (s.setStatus .invalidAddressLength) := by
  cases h : parseAddress s.input with
  | ok m => exact .inl ⟨m, rfl, exec_magics_ok h⟩
  | error e =>
    rcases parseAddress_error h with rfl | rfl
    · exact .inr (.inl (exec_magics_error h))
    · exact .inr (.inr (exec_magics_error h))

/-- A byte is one of the six opcodes, each decoded to its command, or an illegal code (R73, R74). -/
theorem decode_cases : ∀ c : Byte,
    ((c = 0 ∨ 7 ≤ c.toNat) ∧ decode c = .error (.illegalCommand c)) ∨
    (∃ i, c = encode i ∧ decode c = .ok i) := by
  have h : ∀ c : Byte, ((c = 0 ∨ 7 ≤ c.toNat) ∧ decode c = .error (.illegalCommand c)) ∨
      (c = 1 ∧ decode c = .ok .magic) ∨ (c = 2 ∧ decode c = .ok .magics) ∨
      (c = 3 ∧ decode c = .ok .arpreq) ∨ (c = 4 ∧ decode c = .ok .icmpreq) ∨
      (c = 5 ∧ decode c = .ok .cksum) ∨ (c = 6 ∧ decode c = .ok .classify) := by decide
  intro c
  rcases h c with h | h | h | h | h | h | h
  · exact .inl h
  all_goals
    obtain ⟨hc, hd⟩ := h
    exact .inr ⟨_, by rw [hc]; rfl, hd⟩

/-- Everything a write of a byte to `CMD` can do: a command, or the error of an illegal code. -/
theorem runCommand_cases (c : Byte) (s : State) :
    ((c = 0 ∨ 7 ≤ c.toNat) ∧ runCommand c s = .next (s.setStatus .illegalCmd)) ∨
    (∃ i, c = encode i ∧ runCommand c s = exec i s) := by
  rcases decode_cases c with ⟨hc, h⟩ | ⟨i, hc, h⟩
  · exact .inl ⟨hc, by simp [runCommand, h, raise, errorCode]⟩
  · exact .inr ⟨i, hc, by simp [runCommand, h]⟩

/-! ### A step -/

/-- With no transaction pending a step changes nothing. -/
theorem step_nil {s : State} (h : s.pending = []) : step s = .next s := by
  simp [step, runNext, nextTransaction, h]

/-- With a transaction pending a step performs it. -/
theorem step_cons {s : State} {t : Transaction} {rest : List Transaction}
    (h : s.pending = t :: rest) : step s = perform t (s.setPending rest) := by
  simp [step, runNext, nextTransaction, h]

/-- Everything a step can do: nothing where nothing is pending, else one transaction. -/
theorem step_cases {s t : State} (h : step s = .next t) :
    (s.pending = [] ∧ t = s) ∨
    ∃ x rest, s.pending = x :: rest ∧ perform x (s.setPending rest) = .next t := by
  cases hp : s.pending with
  | nil => rw [step_nil hp] at h; cases h; exact .inl ⟨rfl, rfl⟩
  | cons x rest => rw [step_cons hp] at h; exact .inr ⟨x, rest, rfl, h⟩

theorem regOfNumber_lt {n : Nat} {r : Reg} (h : regOfNumber n = some r) : n < 21 := by
  have := (List.getElem?_eq_some_iff.1 h).1
  simpa [allRegs] using this

/-- The number of a register names it (R20). -/
theorem regOfNumber_regNumber (r : Reg) : regOfNumber (regNumber r) = some r := by cases r <;> rfl

/-- A register's number is the one it is named by (R20). -/
theorem regNumber_of_regOfNumber {n : Nat} {r : Reg} (h : regOfNumber n = some r) :
    regNumber r = n := by
  have hn := regOfNumber_lt h
  interval_cases n <;> cases h <;> rfl

/-- Everything a write of a register can do. -/
theorem writeRegister_cases {r : Reg} {v : RegValue} {s t : State}
    (h : writeRegister r v s = .next t) :
    (∃ c, r = .cmd ∧ v = .byte c ∧ runCommand c s = .next t) ∨
    (∃ a, r = .tgt ∧ v = .six a ∧ t = s.setTgt a) ∨
    (∃ a, r = .lhw ∧ v = .six a ∧ t = s.setLhw a) ∨
    (∃ a, r = .lip ∧ v = .four a ∧ t = s.setLip a) ∨
    (∃ n, r = .ilen ∧ v = .word n ∧ n.toNat ≤ Config.params.ibufSize ∧ t = s.setIlen n) ∨
    t = s := by
  cases r with
  | cmd => cases v with
    | byte c => exact .inl ⟨c, rfl, rfl, h⟩
    | _ => cases h
  | tgt => cases v with
    | six a => cases h; exact .inr (.inl ⟨a, rfl, rfl, rfl⟩)
    | _ => cases h
  | lhw => cases v with
    | six a => cases h; exact .inr (.inr (.inl ⟨a, rfl, rfl, rfl⟩))
    | _ => cases h
  | lip => cases v with
    | four a => cases h; exact .inr (.inr (.inr (.inl ⟨a, rfl, rfl, rfl⟩)))
    | _ => cases h
  | ilen => cases v with
    | word n =>
      cases h
      unfold writeIlen writeIlenWithin
      split
      · rename_i hn
        exact .inr (.inr (.inr (.inr (.inl ⟨n, rfl, rfl, hn, rfl⟩))))
      · exact .inr (.inr (.inr (.inr (.inr rfl))))
    | _ => cases h
  | _ => cases h; exact .inr (.inr (.inr (.inr (.inr rfl))))

/-- Everything a transaction can do: run a command, write one register or one byte of `IBUF`, change
nothing, return a value, or reset. -/
theorem perform_cases {x : Transaction} {s t : State} (h : perform x s = .next t) :
    (∃ c, x = .writeReg 0 (.byte c) ∧ runCommand c s = .next t) ∨
    (∃ a, x = .writeReg 2 (.six a) ∧ t = s.setTgt a) ∨
    (∃ a, x = .writeReg 3 (.six a) ∧ t = s.setLhw a) ∨
    (∃ a, x = .writeReg 4 (.four a) ∧ t = s.setLip a) ∨
    (∃ n, x = .writeReg 5 (.word n) ∧ n.toNat ≤ Config.params.ibufSize ∧ t = s.setIlen n) ∨
    (∃ a b, x = .writeIn a b ∧ a < Config.params.ibufSize ∧ t = s.setIbuf (s.ibuf.write a b)) ∨
    t = s ∨ (∃ r, t = s.observe r) ∨ (∃ r, t = (s.observe r).countDraw) ∨
    (x = .reset ∧ t = s.platformReset) := by
  cases x with
  | writeReg n v =>
    simp only [perform] at h
    split at h
    · rename_i r hr
      have hn := regNumber_of_regOfNumber hr
      rcases writeRegister_cases h with ⟨c, rfl, rfl, g⟩ | ⟨a, rfl, rfl, g⟩ | ⟨a, rfl, rfl, g⟩ |
        ⟨a, rfl, rfl, g⟩ | ⟨m, rfl, rfl, hm, g⟩ | g <;> subst hn
      · exact .inl ⟨c, rfl, g⟩
      · exact .inr (.inl ⟨a, rfl, g⟩)
      · exact .inr (.inr (.inl ⟨a, rfl, g⟩))
      · exact .inr (.inr (.inr (.inl ⟨a, rfl, g⟩)))
      · exact .inr (.inr (.inr (.inr (.inl ⟨m, rfl, hm, g⟩))))
      · exact .inr (.inr (.inr (.inr (.inr (.inr (.inl g))))))
    · cases h
  | readReg n =>
    simp only [perform] at h
    split at h <;> cases h
    exact .inr (.inr (.inr (.inr (.inr (.inr (.inr (.inl ⟨_, rfl⟩)))))))
  | writeIn a b =>
    simp only [perform] at h
    split at h <;> cases h
    rename_i ha
    exact .inr (.inr (.inr (.inr (.inr (.inl ⟨a, b, rfl, ha, rfl⟩)))))
  | readIn a =>
    simp only [perform] at h
    split at h <;> cases h
    exact .inr (.inr (.inr (.inr (.inr (.inr (.inr (.inl ⟨_, rfl⟩)))))))
  | writeOut a b =>
    simp only [perform] at h
    split at h <;> cases h
    exact .inr (.inr (.inr (.inr (.inr (.inr (.inl rfl))))))
  | readOut a =>
    simp only [perform] at h
    split at h <;> cases h
    unfold readOutByte
    split
    · exact .inr (.inr (.inr (.inr (.inr (.inr (.inr (.inl ⟨_, rfl⟩)))))))
    · exact .inr (.inr (.inr (.inr (.inr (.inr (.inr (.inr (.inl ⟨_, rfl⟩))))))))
  | reset =>
    cases h
    exact .inr (.inr (.inr (.inr (.inr (.inr (.inr (.inr (.inr ⟨rfl, rfl⟩))))))))

/-- A step that writes a byte to `CMD`. -/
theorem step_cmd {s : State} {c : Byte} {rest : List Transaction}
    (h : s.pending = .writeReg 0 (.byte c) :: rest) :
    step s = runCommand c (s.setPending rest) := by
  rw [step_cons h]; rfl

end Sys2Proof.Machine
end

