-- ==== Sys2Proof/Laws/Wire.lean ====
section
/-! SUPPORT. The wire formats: `BE16` and `be16` are inverse, and how long each structure is
(spec/30_encoding.md R90). -/

namespace Sys2Proof.Machine

/-- `be16` of `BE16(v)` is `v` (R14). -/
theorem wordOfBytes_bytes (v : Word) :
    wordOfBytes (v.extractLsb' 8 8) (v.extractLsb' 0 8) = v := by
  apply BitVec.eq_of_toNat_eq
  have := v.isLt
  simp only [wordOfBytes, be16, BitVec.toNat_ofNat, BitVec.extractLsb'_toNat, Nat.shiftRight_eq_div_pow]
  omega

/-- `BE16` of `be16(b0, b1)` is `b0 b1` (R14). -/
theorem bytesOfWord_wordOfBytes (hi lo : Byte) : bytesOfWord (wordOfBytes hi lo) = [hi, lo] := by
  have h1 := hi.isLt
  have h2 := lo.isLt
  have e1 : (wordOfBytes hi lo).extractLsb' 8 8 = hi := by
    apply BitVec.eq_of_toNat_eq
    simp only [wordOfBytes, be16, BitVec.toNat_ofNat, BitVec.extractLsb'_toNat, Nat.shiftRight_eq_div_pow]
    omega
  have e2 : (wordOfBytes hi lo).extractLsb' 0 8 = lo := by
    apply BitVec.eq_of_toNat_eq
    simp only [wordOfBytes, be16, BitVec.toNat_ofNat, BitVec.extractLsb'_toNat, Nat.shiftRight_eq_div_pow]
    omega
  rw [bytesOfWord, e1, e2]

@[simp] theorem bytesOfWord_length (v : Word) : (bytesOfWord v).length = 2 := rfl

@[simp] theorem hwBytes_length (a : HwAddr) : (hwBytes a).length = 6 := rfl

@[simp] theorem ipBytes_length (a : IpAddr) : (ipBytes a).length = 4 := rfl

@[simp] theorem rep_length (s : List Byte) (n : Nat) : (rep s n).length = n * s.length := by
  induction n with
  | zero => simp [rep]
  | succ n ih => simp [rep, ih, Nat.succ_mul, Nat.add_comm]

@[simp] theorem ethEncode_length (d s : HwAddr) (t : Word) (p : List Byte) :
    (ethEncode d s t p).length = 14 + p.length := by
  simp [ethEncode]; omega

@[simp] theorem arpEncode_length (m : ArpMessage) : (arpEncode m).length = 28 := rfl

@[simp] theorem ipv4HeaderWith_length (p : Params) (s d : IpAddr) (n : Nat) (c : Word) :
    (ipv4HeaderWith p s d n c).length = 20 := rfl

@[simp] theorem ipv4Header_length (p : Params) (s d : IpAddr) (n : Nat) :
    (ipv4Header p s d n).length = 20 := rfl

@[simp] theorem icmpEchoWith_length (t c : Byte) (i q : Word) (d : List Byte) (k : Word) :
    (icmpEchoWith t c i q d k).length = 8 + d.length := by
  simp [icmpEchoWith]; omega

@[simp] theorem icmpEcho_length (t c : Byte) (i q : Word) (d : List Byte) :
    (icmpEcho t c i q d).length = 8 + d.length := by
  simp [icmpEcho]

/-- A magic packet is 102 bytes (R87). -/
@[simp] theorem magicPacket_length (m : HwAddr) : (magicPacket m).length = 102 := by
  simp [magicPacket, magicSyncLen, magicReps]

/-- An ARP probe is 42 bytes (R90). -/
@[simp] theorem arpProbe_length (t l : HwAddr) (i : IpAddr) : (arpProbe t l i).length = 42 := by
  simp [arpProbe]

/-- An ICMP probe is `42 + len(ICMP_DATA)` bytes (R90). -/
@[simp] theorem icmpProbe_length (p : Params) (t l : HwAddr) (i : IpAddr) :
    (icmpProbe p t l i).length = 42 + p.icmpData.length := by
  simp [icmpProbe, icmpProbeMessage]; omega

/-- The parser answers only messages that meet the ArpMessage invariant (R83, R153). -/
theorem arpDecode_lengths {p : List Byte} {m : ArpMessage} (h : arpDecode p = some m) :
    m.hlen = arpHlen ∧ m.plen = arpPlen := by
  simp only [arpDecode] at h
  split at h
  · cases h
  · split at h
    · cases h
    · rename_i hne
      cases h
      exact ⟨Decidable.not_not.1 fun h => hne (.inl h), Decidable.not_not.1 fun h => hne (.inr h)⟩

/-- An ARP verdict carries a message that meets the ArpMessage invariant (R83). -/
theorem classifyFrame_arp {b : List Byte} {m : ArpMessage} (h : classifyFrame b = .arp m) :
    m.hlen = arpHlen ∧ m.plen = arpPlen := by
  simp only [classifyFrame] at h
  split at h
  · cases h
  · split at h
    · split at h
      · cases h
      · rename_i he
        cases h
        exact arpDecode_lengths he
    · split at h
      · split at h <;> cases h
      · cases h

end Sys2Proof.Machine
end

