-- ==== Sys2Proof/Tests/Slice0.lean ====
section
/-! SUPPORT. Tests. Expected results are the spec's own: the vectors of spec/95_test_vectors.md (named K, M,
T, A, I, F and X there), the encodings of spec/30_encoding.md, the bounds of spec/00_scope.md. The last part
shows, for each statement with hypotheses, a state and operands that meet them (`witness_...`). -/

namespace Sys2Proof.Tests
open Sys2Proof Sys2Proof.Machine

/-! ### Helpers -/

/-- What a function says of the next state, none where there is no next state. -/
def got {α : Type} (o : Host.Outcome State Fault Refusal) (f : State → α) : Option α :=
  match o with
  | .next s => some (f s)
  | .fault _ => none
  | .refused _ => none

/-- The reset state with bytes loaded into `IBUF`, `ILEN` their number. -/
def loaded (bytes : List Byte) : State :=
  { State.reset with ibuf := Memory.ofBytes 0 bytes, ilen := BitVec.ofNat 16 bytes.length }

/-- The reset state with the host's transactions to come. -/
def host (ts : List Transaction) : State := { State.reset with pending := ts }

/-- The standard operands of spec/95_test_vectors.md. -/
def tgt0 : HwAddr := ⟨0x00, 0x1A, 0x2B, 0x3C, 0x4D, 0x5E⟩
def lhw0 : HwAddr := ⟨0x52, 0x54, 0x00, 0x12, 0x34, 0x56⟩
def lip0 : IpAddr := ⟨0xC0, 0xA8, 0x01, 0x0A⟩
def operands : State := { State.reset with tgt := tgt0, lhw := lhw0, lip := lip0 }

/-- The configurations CFG0 and CFG2 of spec/95_test_vectors.md. -/
def cfg0 : Params := ⟨64, 102, 64, 0, [0x00]⟩
def cfg2 : Params := ⟨64, 102, 128, 2, [0x61, 0x62, 0x63, 0x64, 0x65, 0x66, 0x67, 0x68]⟩

/-- Vector or frame A1. -/
def bytesA1 : List Byte :=
    [0xFF, 0xFF, 0xFF, 0xFF, 0xFF, 0xFF, 0x52, 0x54, 0x00, 0x12, 0x34, 0x56, 0x08, 0x06] ++
    [0x00, 0x01, 0x08, 0x00, 0x06, 0x04, 0x00, 0x01, 0x52, 0x54, 0x00, 0x12, 0x34, 0x56] ++
    [0xC0, 0xA8, 0x01, 0x0A, 0x00, 0x1A, 0x2B, 0x3C, 0x4D, 0x5E, 0xFF, 0xFF, 0xFF, 0xFF]

/-- Vector or frame I1. -/
def bytesI1 : List Byte :=
    [0x00, 0x1A, 0x2B, 0x3C, 0x4D, 0x5E, 0x52, 0x54, 0x00, 0x12, 0x34, 0x56, 0x08, 0x00] ++
    [0x45, 0x00, 0x00, 0x1D, 0x00, 0x00, 0x00, 0x00, 0x40, 0x01, 0xB9, 0x2E, 0xC0, 0xA8] ++
    [0x01, 0x0A, 0xFF, 0xFF, 0xFF, 0xFF, 0x08, 0x00, 0xF7, 0xFF, 0x00, 0x00, 0x00, 0x00] ++
    [0x00]

/-- Vector or frame I3. -/
def bytesI3 : List Byte :=
    [0x00, 0x1A, 0x2B, 0x3C, 0x4D, 0x5E, 0x52, 0x54, 0x00, 0x12, 0x34, 0x56, 0x08, 0x00] ++
    [0x45, 0x00, 0x00, 0x24, 0x00, 0x00, 0x40, 0x00, 0x80, 0x01, 0x39, 0x27, 0xC0, 0xA8] ++
    [0x01, 0x0A, 0xFF, 0xFF, 0xFF, 0xFF, 0x08, 0x00, 0x66, 0x6A, 0x00, 0x00, 0x00, 0x00] ++
    [0x61, 0x62, 0x63, 0x64, 0x65, 0x66, 0x67, 0x68]

/-- Vector or frame FR12. -/
def bytesFR12 : List Byte :=
    [0x52, 0x54, 0x00, 0x12, 0x34, 0x56, 0x00, 0x1A, 0x2B, 0x3C, 0x4D, 0x5E, 0x08, 0x00] ++
    [0x45, 0x00, 0x00, 0x1D, 0x00, 0x00, 0x00, 0x00, 0x40, 0x01, 0xF7, 0x38, 0xC0, 0xA8] ++
    [0x01, 0x4D, 0xC0, 0xA8, 0x01, 0x0A, 0x00, 0x00, 0xFF, 0xFF, 0x00, 0x00, 0x00, 0x00] ++
    [0x00]

/-- Vector or frame FR13. -/
def bytesFR13 : List Byte :=
    [0x52, 0x54, 0x00, 0x12, 0x34, 0x56, 0x00, 0x1A, 0x2B, 0x3C, 0x4D, 0x5E, 0x08, 0x00] ++
    [0x46, 0x00, 0x00, 0x20, 0x00, 0x00, 0x00, 0x00, 0x40, 0x01, 0xF4, 0x34, 0xC0, 0xA8] ++
    [0x01, 0x4D, 0xC0, 0xA8, 0x01, 0x0A, 0x01, 0x01, 0x01, 0x00, 0x00, 0x00, 0xFF, 0xFF] ++
    [0x00, 0x00, 0x00, 0x00]

/-- Vector or frame FR15. -/
def bytesFR15 : List Byte :=
    [0x52, 0x54, 0x00, 0x12, 0x34, 0x56, 0x00, 0x1A, 0x2B, 0x3C, 0x4D, 0x5E, 0x08, 0x00] ++
    [0x45, 0x00, 0x00, 0x1C, 0x00, 0x00, 0x00, 0x00, 0x40, 0x11, 0xF7, 0x29, 0xC0, 0xA8] ++
    [0x01, 0x4D, 0xC0, 0xA8, 0x01, 0x0A, 0x00, 0x00, 0x00, 0x00, 0x00, 0x00, 0x00, 0x00]

/-- The first bytes of frame FR5 (EtherType `0x86DD`). -/
def bytesFR5 : List Byte :=
    [0x52, 0x54, 0x00, 0x12, 0x34, 0x56, 0x00, 0x1A, 0x2B, 0x3C, 0x4D, 0x5E, 0x86, 0xDD] ++
    [0x60, 0x00]

/-- Vector K14: an IPv4 header with a zero checksum field. -/
def bytesK14 : List Byte :=
    [0x45, 0x00, 0x00, 0x73, 0x00, 0x00, 0x40, 0x00, 0x40, 0x11, 0x00, 0x00, 0xC0, 0xA8] ++
    [0x00, 0x01, 0xC0, 0xA8, 0x00, 0xC7]

/-- The characters of the string of vector T1. -/
def textT1 : List Byte :=
    [0x30, 0x30, 0x3A, 0x30, 0x31, 0x3A, 0x30, 0x32, 0x3A] ++
    [0x30, 0x33, 0x3A, 0x30, 0x34, 0x3A, 0x30, 0x35]

/-- The characters of the string of vector T2. -/
def textT2 : List Byte :=
    [0x47, 0x47, 0x3A, 0x30, 0x30, 0x3A, 0x30, 0x30, 0x3A] ++
    [0x30, 0x30, 0x3A, 0x30, 0x30, 0x3A, 0x30, 0x30]

/-- The characters of the string of vector T3. -/
def textT3 : List Byte :=
    [0x30, 0x30, 0x3A, 0x30, 0x30, 0x3A, 0x30, 0x30, 0x3A] ++
    [0x30, 0x30, 0x3A, 0x30, 0x30]

/-- The characters of the string of vector T9. -/
def textT9 : List Byte :=
    [0x30, 0x30, 0x3A, 0x3A, 0x30, 0x32, 0x3A, 0x30, 0x33] ++
    [0x3A, 0x30, 0x34, 0x3A, 0x30, 0x35]

/-- The characters of the string of vector T11. -/
def textT11 : List Byte :=
    [0x47, 0x47, 0x3A, 0x30, 0x30]

/-! ### Well-formedness: each check refuses an ill-formed term -/

theorem test_params_wf : cfg0.wf ∧ cfg2.wf := by decide
/-- R5: `IBUF_SIZE` is at least 42 and at most 65535. -/
theorem test_params_ibuf_bounds :
    ¬({ cfg0 with ibufSize := 41 } : Params).wf ∧ ¬({ cfg0 with ibufSize := 65536 } : Params).wf := by decide
/-- R6: `OBUF_SIZE` is at least 102 and at most 65535. -/
theorem test_params_obuf_bounds :
    ¬({ cfg0 with obufSize := 101 } : Params).wf ∧ ¬({ cfg0 with obufSize := 65536 } : Params).wf := by decide
/-- R6, R9: the ICMP probe fits `OBUF`. -/
theorem test_params_data_fits :
    ({ cfg0 with icmpData := List.replicate 60 0 } : Params).wf ∧
      ¬({ cfg0 with icmpData := List.replicate 61 0 } : Params).wf := by decide
/-- R20: registers are 0 to 20. -/
theorem test_transaction_number :
    (Transaction.readReg 20).wf cfg0 = true ∧ (Transaction.readReg 21).wf cfg0 = false ∧
      (Transaction.writeReg 21 (.byte 0)).wf cfg0 = false := by decide
/-- R35: a register is written whole; a read-only register ignores any write. -/
theorem test_transaction_width :
    (Transaction.writeReg 5 (.word 1)).wf cfg0 = true ∧ (Transaction.writeReg 5 (.byte 1)).wf cfg0 = false ∧
      (Transaction.writeReg 1 (.six lhw0)).wf cfg0 = true := by decide
/-- R51: offsets lie inside the buffer. -/
theorem test_transaction_offset :
    (Transaction.writeIn 63 0).wf cfg0 = true ∧ (Transaction.writeIn 64 0).wf cfg0 = false ∧
      (Transaction.readIn 64).wf cfg0 = false ∧ (Transaction.readOut 102).wf cfg0 = false ∧
      (Transaction.writeOut 102 0).wf cfg0 = false ∧ (Transaction.readOut 101).wf cfg0 = true := by decide
theorem test_memory_canonical :
    ¬Memory.wf [(3, 1), (3, 2)] ∧ ¬Memory.wf [(3, 1), (2, 2)] ∧
      ((Memory.write [(3, 1)] 3 2).write 2 5) = [(2, 5), (3, 2)] := by decide

/-! ### Decoding (R72, R74) -/

/-- R72, each opcode written out bit by bit. -/
theorem test_decode_opcodes :
    decode 0b00000001 = .ok .magic ∧ decode 0b00000010 = .ok .magics ∧ decode 0b00000011 = .ok .arpreq ∧
      decode 0b00000100 = .ok .icmpreq ∧ decode 0b00000101 = .ok .cksum ∧
      decode 0b00000110 = .ok .classify := by decide
theorem test_decode_illegal :
    decode 0x00 = .error (.illegalCommand 0x00) ∧ decode 0x07 = .error (.illegalCommand 0x07) ∧
      decode 0xFF = .error (.illegalCommand 0xFF) ∧ decode 0x81 = .error (.illegalCommand 0x81) := by decide
theorem test_decode_table_words :
    (List.range 8).map (decodeTableWord 8) =
      [none, some .magic, some .magics, some .arpreq, some .icmpreq, some .cksum, some .classify, none] := by
  decide
theorem test_placed_words_run :
    (List.range 8).map (fun w => (got (step (State.reset.withFetchWord 8 w)) (·.status))) =
      [some 4, some 1, some 2, some 1, some 1, some 1, some 1, some 4] := by decide

/-! ### CKSUM -/

/-- K3 and K13. -/
theorem test_cksum_odd_is_high_byte :
    got (exec .cksum (loaded [0xFF])) (fun t => (t.ckfold, t.cksum, t.status)) = some (0xFF00, 0x00FF, 1) := by
  decide
theorem test_cksum_carry_two :
    got (exec .cksum (loaded [0x00, 0x01, 0xF2, 0x03, 0xF4, 0xF5, 0xF6, 0xF7]))
      (fun t => (t.ckfold, t.cksum)) = some (0xDDF2, 0x220D) := by decide
/-- K9, K10, K12, and K14 with K15. -/
theorem test_fold_vectors :
    fold [0xFF, 0xFF, 0xFF, 0xFF] = 0xFFFF ∧ fold [0xFF, 0xFF, 0x00, 0x01] = 0x0001 ∧
      fold [0xFF, 0xFE, 0x00, 0x01, 0x00, 0x01] = 0x0001 ∧ fold bytesK14 = 0x479E ∧
      fold (bytesK14.take 10 ++ [0xB8, 0x61] ++ bytesK14.drop 12) = 0xFFFF := by decide

/-! ### MAGIC and MAGICS -/

/-- M1: single bytes of the packet, its length and the code. -/
theorem test_magic_bytes :
    got (exec .magic { State.reset with tgt := ⟨0, 1, 2, 3, 4, 5⟩ })
      (fun t => (t.olen, t.status, [5, 6, 11, 12, 100, 101, 102].map t.outByte)) =
    some (102, 1, [some 0xFF, some 0, some 5, some 0, some 4, some 5, none]) := by decide
/-- T1. -/
theorem test_magics_ok :
    got (exec .magics (loaded textT1)) (fun t => (t.tgt, t.olen, t.status, t.outByte 101)) =
      some (⟨0, 1, 2, 3, 4, 5⟩, 102, 1, some 5) := by decide
/-- T2, T3, T9, T11: the code, and that `OLEN` stays. -/
theorem test_magics_failures :
    [textT2, textT3, textT9, textT11].map (fun x => got (exec .magics (loaded x)) (fun t => (t.status, t.olen))) =
      [some (2, 0), some (3, 0), some (2, 0), some (2, 0)] := by decide

/-! ### The probes -/

/-- A1. -/
theorem test_arpreq_frame :
    got (exec .arpreq operands) (fun t => (t.olen, t.status, t.packet)) =
      some (42, 1, bytesA1.map some) := by decide
/-- I1: an odd number of data bytes. -/
theorem test_icmpreq_odd_data :
    got (icmpreqWith cfg0 operands) (fun t => (t.olen, t.status, t.packet)) =
      some (43, 1, bytesI1.map some) := by decide
/-- I3: flags and TTL in their places. -/
theorem test_icmpreq_flags_ttl : icmpProbe cfg2 tgt0 lhw0 lip0 = bytesI3 := by decide

/-! ### CLASSIFY -/

/-- F1. -/
theorem test_classify_arp :
    got (exec .classify (loaded bytesA1)) (fun t => (t.matchReg, t.status, arpRegisters t, t.rSrcHw)) =
      some (1, 1, ⟨1, 0x0800, 6, 4, 1, lhw0, lip0, tgt0, ⟨0xFF, 0xFF, 0xFF, 0xFF⟩⟩, zeroHw) := by decide
/-- F13 and F14: options before the ICMP message, and one byte too few. -/
theorem test_classify_icmp_options :
    classifyFrame bytesFR13 = .icmp 0 tgt0 ∧ classifyFrame (bytesFR13.take 45) = .none ∧
      classifyFrame bytesI1 = .icmp 8 lhw0 ∧ classifyFrame bytesFR15 = .none := by decide

/-! ### Registers and buffers (X4, X6, X7, X9, X10) -/

theorem test_error_keeps_packet :
    got (runCommand 0x80 { operands with olen := 102, status := 1 }) (fun t => (t.status, t.olen, t.tgt)) =
      some (4, 102, tgt0) := by decide
theorem test_read_cmd_is_zero :
    got (step (host [.readReg 0])) (fun t => t.observed) = some [.reg 0 (.byte 0)] := by decide
theorem test_write_read_only_ignored :
    got (step { host [.writeReg 6 (.word 7)] with olen := 102 }) (·.olen) = some 102 := by decide
theorem test_ilen_limit :
    (writeIlenWithin 64 65 { State.reset with ilen := 17 }).ilen = 17 ∧
      (writeIlenWithin 64 64 { State.reset with ilen := 17 }).ilen = 64 := by decide
/-- R190: reset zeroes the registers; what the host has read stays with the host. -/
theorem test_reset :
    got (perform .reset { operands with status := 1, olen := 102, obuf := [(0, 1)] })
      (fun t => (t.status, t.olen, t.tgt, t.obuf)) = some (0, 0, zeroHw, []) := by decide

/-! ### The notation of host programs (R75) -/

theorem test_line_in_text :
    expandLine State.reset (.inText ['0', ':', 'A']) =
      some [.writeIn 0 0x30, .writeIn 1 0x3A, .writeIn 2 0x41, .writeReg 5 (.word 3)] := by decide
theorem test_line_out :
    expandLine { State.reset with olen := 2 } .out = some [.readReg 6, .readOut 0, .readOut 1] := by decide
theorem test_line_command :
    expandLine State.reset (.command .classify) = some [.writeReg 0 (.byte 0x06)] := by decide
theorem test_line_loopback_needs :
    expandLine { State.reset with olen := 2 } (.loopback 0 3) = none := by decide

/-! ### Witnesses: hypotheses that are met -/

/-- Offsets 0 and 41 lie in `IBUF`, 0 and 101 in `OBUF`, and 65535 in neither, whatever the parameters. -/
theorem offsets_inside_and_outside :
    (0 < Config.params.ibufSize ∧ 41 < Config.params.ibufSize) ∧
      (0 < Config.params.obufSize ∧ 101 < Config.params.obufSize) ∧
      Config.params.ibufSize ≤ 65535 ∧ Config.params.obufSize ≤ 65535 := by
  have := Config.params_wf
  omega

theorem witness_DecodeRecoversEveryCommand :
    Instr.classify.wf = true ∧ decode 0x06 = .ok .classify := by decide
theorem witness_DecoderIsTotalOverTheOpcodeMap :
    (0x00 : Byte) ∉ ([0x01, 0x02, 0x03, 0x04, 0x05, 0x06] : List Byte) ∧
      (0x07 : Byte) ∉ ([0x01, 0x02, 0x03, 0x04, 0x05, 0x06] : List Byte) := by decide
theorem witness_StepRunsTheDecodedCommand :
    (host [.writeReg 0 (.byte 0x01)]).pending = [.writeReg 0 (.byte 0x01)] ∧ decode 0x01 = .ok .magic ∧
      Instr.magic.wf = true ∧ (host [.writeReg 0 (.byte 0x07)]).pending = [.writeReg 0 (.byte 0x07)] ∧
      decode 0x07 = .error (.illegalCommand 0x07) := by decide
theorem witness_IllegalCommandOnlySetsStatus :
    ((0x00 : Byte) = 0x00 ∨ 0x07 ≤ (0x00 : Byte).toNat) ∧ ((0x07 : Byte) = 0x00 ∨ 0x07 ≤ (0x07 : Byte).toNat) ∧
      ((0xFF : Byte) = 0x00 ∨ 0x07 ≤ (0xFF : Byte).toNat) := by decide
theorem witness_RegisterReadReturnsTheValueOnly :
    (0, .byte 0) ∈ registerReads (host [.readReg 0]) ∧ (host [.readReg 0]).pending = [.readReg 0] ∧
      (20, .six zeroHw) ∈ registerReads (host [.readReg 20]) ∧
      (host [.readReg 20]).pending = [.readReg 20] := by decide
theorem witness_OperandWriteReplacesTheRegister :
    (host [.writeReg 2 (.six tgt0)]).pending = [.writeReg 2 (.six tgt0)] ∧
      (host [.writeReg 3 (.six lhw0)]).pending = [.writeReg 3 (.six lhw0)] ∧
      (host [.writeReg 4 (.four lip0)]).pending = [.writeReg 4 (.four lip0)] := by decide
theorem witness_IlenTakesOnlyLengthsThatFit :
    (host [.writeReg 5 (.word 17)]).pending = [.writeReg 5 (.word 17)] ∧
      (64 : Word).toNat ≤ 64 ∧ 64 < (65 : Word).toNat ∧
      exec .cksum State.reset = .next { State.reset with cksum := 0xFFFF, status := 1 } :=
  ⟨rfl, by decide, by decide, rfl⟩
theorem witness_ReadOnlyWriteIsIgnored :
    (1 = 1 ∨ (6 ≤ 1 ∧ 1 ≤ 20)) ∧ (6 = 1 ∨ (6 ≤ 6 ∧ 6 ≤ 20)) ∧ (20 = 1 ∨ (6 ≤ 20 ∧ 20 ≤ 20)) ∧
      (host [.writeReg 1 (.byte 1)]).pending = [.writeReg 1 (.byte 1)] ∧
      (host [.writeReg 20 (.six tgt0)]).pending = [.writeReg 20 (.six tgt0)] := by decide
theorem witness_HostWriteInSetsOneByte :
    (host [.writeIn 41 5]).pending = [.writeIn 41 5] ∧ 41 < Config.params.ibufSize :=
  ⟨rfl, offsets_inside_and_outside.1.2⟩
theorem witness_BufferReadReturnsTheByteOnly :
    ((host [.readIn 0]).pending = [.readIn 0] ∧ 0 < Config.params.ibufSize) ∧
      ((host [.readOut 101]).pending = [.readOut 101] ∧ 101 < Config.params.obufSize) ∧
      (host [.readOut 101]).outByte 101 = none ∧
      ({ host [.readOut 101] with olen := 102, obuf := [(101, 7)] } : State).outByte 101 = some 7 :=
  ⟨⟨rfl, offsets_inside_and_outside.1.1⟩, ⟨rfl, offsets_inside_and_outside.2.1.2⟩, by decide, by decide⟩
theorem witness_HostWriteOutIsIgnored :
    (host [.writeOut 101 5]).pending = [.writeOut 101 5] ∧ 101 < Config.params.obufSize :=
  ⟨rfl, offsets_inside_and_outside.2.1.2⟩
theorem witness_AccessOutsideASpaceIsRefused :
    ((host [.writeReg 21 (.byte 0)]).pending = [.writeReg 21 (.byte 0)] ∧
        (host [.readReg 21]).pending = [.readReg 21] ∧ 20 < 21) ∧
      ((host [.writeIn 65535 0]).pending = [.writeIn 65535 0] ∧
        (host [.readIn 65535]).pending = [.readIn 65535] ∧ Config.params.ibufSize ≤ 65535) ∧
      (host [.writeOut 65535 0]).pending = [.writeOut 65535 0] ∧
      (host [.readOut 65535]).pending = [.readOut 65535] ∧ Config.params.obufSize ≤ 65535 :=
  ⟨⟨rfl, rfl, by decide⟩, ⟨rfl, rfl, offsets_inside_and_outside.2.2.1⟩, rfl, rfl,
    offsets_inside_and_outside.2.2.2⟩
theorem witness_StepWithoutTransactionIsIdle : operands.pending = [] := rfl
theorem witness_ResetZeroesRegistersAndForgetsBuffers :
    (20, RegValue.six zeroHw) ∈ registerReads State.reset := by decide
theorem witness_LoadLineFillsTheInput :
    operands.pending = [] ∧ [0x12, 0x34, 0x56].length ≤ Config.params.ibufSize ∧
      [0x12, 0x34, 0x56].length < 65536 := by
  have := offsets_inside_and_outside
  exact ⟨rfl, by simp only [List.length_cons, List.length_nil]; omega, by decide⟩

/-- A state that has built a magic packet. -/
def built : State :=
  { State.reset with status := 1, olen := 102, obuf := Memory.ofBytes 0 (magicPacket zeroHw) }

theorem witness_built_meets_the_invariant : built.Inv where
  ilen_le := Nat.zero_le _
  olen_le := Nat.succ_le_of_lt offsets_inside_and_outside.2.1.2
  olen_packet := by simp [built, packetLengths]
  status_legal := by decide
  match_legal := by decide
  sums := .inr ⟨rfl, rfl⟩
  arp_lengths := by intro h; exact absurd h (by decide)
  idle_untouched := by intro h; exact absurd h (by decide)
  ibuf_wf := List.Pairwise.nil
  ibuf_inside := by intro c h; cases h
  obuf_wf := Memory.ofBytes_wf 0 _
  obuf_packet := by
    intro a
    have hl : (magicPacket zeroHw).length = 102 := by decide
    show (Memory.read (Memory.ofBytes 0 (magicPacket zeroHw)) a).isSome ↔ a < 102
    rw [Memory.read_ofBytes]
    simp [hl]

theorem witness_LoopbackLineCopiesThePacket :
    built.Inv ∧ built.pending = [] ∧ 6 ≤ 12 ∧ 12 ≤ built.olen.toNat ∧ 12 - 6 ≤ Config.params.ibufSize := by
  have := offsets_inside_and_outside
  exact ⟨witness_built_meets_the_invariant, rfl, by omega, by decide, by omega⟩
theorem witness_MagicPacketBytes : 0 < 6 ∧ 5 < 6 ∧ (6 ≤ 6 ∧ 6 < 102) ∧ 6 ≤ 101 ∧ 101 < 102 := by decide
theorem witness_MagicBuildsThePacketOfTgt : 5 < 6 ∧ 15 < 16 := by decide
theorem witness_MagicsBuildsThePacketOfTheString :
    (splitColons (loaded textT1).input).map hexSeg = (hwBytes ⟨0, 1, 2, 3, 4, 5⟩).map some := by decide
theorem witness_MagicsFailuresWriteStatusOnly :
    (2 < [(0x30 : Byte), 0x30, 0x30].length ∧ ∃ c ∈ [(0x47 : Byte)], ¬isHexChar c) ∧
      (∃ g ∈ splitColons (loaded textT2).input, hexSeg g = none) ∧
      (∀ g ∈ splitColons (loaded textT3).input, hexSeg g ≠ none) ∧
      (splitColons (loaded textT3).input).length ≠ 6 :=
  ⟨⟨by decide, 0x47, by simp, by simp [isHexChar]⟩, by decide, by decide, by decide⟩
theorem witness_BuilderMeetsTheDocumentsProperties :
    (loaded textT1).input = [0x30, 0x30, 0x3A, 0x30, 0x31, 0x3A, 0x30, 0x32, 0x3A] ++
        [0x30, 0x33, 0x3A, 0x30, 0x34, 0x3A, 0x30, 0x35] ∧
      (loaded textT2).input = [0x47, 0x47, 0x3A, 0x30, 0x30, 0x3A, 0x30, 0x30, 0x3A] ++
        [0x30, 0x30, 0x3A, 0x30, 0x30, 0x3A, 0x30, 0x30] ∧
      (loaded textT3).input =
        [0x30, 0x30, 0x3A, 0x30, 0x30, 0x3A, 0x30, 0x30, 0x3A, 0x30, 0x30, 0x3A, 0x30, 0x30] := by decide
/-- T4: the canonical string of `00:1A:2B:3C:4D:5E`, as the spec writes its characters. -/
theorem witness_CanonicalStringParsesToItsAddress :
    (loaded (canonicalString tgt0)).input = canonicalString tgt0 ∧
      canonicalString tgt0 = [0x30, 0x30, 0x3A, 0x31, 0x41, 0x3A, 0x32, 0x42, 0x3A] ++
        [0x33, 0x43, 0x3A, 0x34, 0x44, 0x3A, 0x35, 0x45] := by decide
theorem witness_HexSegmentGrammarAndValue :
    15 < 16 ∧ (0x46 : Byte) = upperDigit 15 ∧ (0x66 : Byte) = lowerDigit 15 ∧ (0x39 : Byte) = upperDigit 9 ∧
      (0x41 : Byte) = upperDigit 10 ∧ hexSeg [0x46] ≠ none := by decide
theorem witness_IcmpProbeLengthsAndChecksumsVerify :
    cfg2.wf ∧ bytesI3 = icmpProbe cfg2 tgt0 lhw0 lip0 := by decide
theorem witness_FoldHasTheClosedForm :
    wordSum (completeOdd [0x00]) = 0 ∧ 0 < wordSum (completeOdd [0xFF, 0xFF]) ∧
      ∀ w ∈ wordsOf (completeOdd [0x00]), w = 0 := by decide
/-- K13 with its words permuted, and its value. -/
theorem witness_FoldIgnoresTheOrderOfWords :
    (wordsOf (completeOdd [0x00, 0x01, 0xF2, 0x03, 0xF4, 0xF5, 0xF6, 0xF7])).Perm
        (wordsOf (completeOdd [0xF6, 0xF7, 0x00, 0x01, 0xF4, 0xF5, 0xF2, 0x03])) ∧
      fold [0xF6, 0xF7, 0x00, 0x01, 0xF4, 0xF5, 0xF2, 0x03] = 0xDDF2 := by decide
theorem witness_InsertedChecksumVerifies :
    10 % 2 = 0 ∧ bytesK14[10]? = some 0x00 ∧ bytesK14[10 + 1]? = some 0x00 ∧
      bytesK14.take 10 ++ [0xB8, 0x61] ++ bytesK14.drop 12 =
        bytesK14.take 10 ++ bytesOfWord (cksum bytesK14) ++ bytesK14.drop (10 + 2) := by decide
theorem witness_CksumWritesTheSumAndItsComplement :
    (loaded []).ilen = 0 ∧ (∀ b ∈ (loaded [0x00, 0x00]).input, b = 0x00) ∧
      (loaded [0xFF, 0xFF]).input = [0xFF, 0xFF] := by decide
theorem witness_ClassifyReportsItsVerdict :
    (loaded (bytesA1.take 13)).ilen.toNat < 14 ∧
      classifyFrame (loaded bytesA1).input = .arp (arpProbeMessage tgt0 lhw0 lip0) ∧
      classifyFrame (loaded bytesFR12).input = .icmp 0 tgt0 ∧
      classifyFrame (loaded bytesFR15).input = .none := by decide
/-- F1, F3 and F4: 28 bytes of payload match, 27 do not. -/
theorem witness_ArpFrameMatchesExactlyWhenWellFormed :
    (14 ≤ bytesA1.length ∧ be16 (byteAt bytesA1 12) (byteAt bytesA1 13) = 0x0806 ∧
        28 ≤ (bytesA1.drop 14).length ∧ byteAt (bytesA1.drop 14) 4 = 6 ∧ byteAt (bytesA1.drop 14) 5 = 4) ∧
      14 ≤ (bytesA1.take 41).length ∧ be16 (byteAt (bytesA1.take 41) 12) (byteAt (bytesA1.take 41) 13) = 0x0806 ∧
      ¬28 ≤ ((bytesA1.take 41).drop 14).length := by decide
/-- F13 and F14: 32 bytes of payload behind `ihl = 6` match, 31 do not. -/
theorem witness_IcmpFrameMatchesExactlyWhenWellFormed :
    (14 ≤ bytesFR13.length ∧ be16 (byteAt bytesFR13 12) (byteAt bytesFR13 13) = 0x0800 ∧
        20 ≤ (bytesFR13.drop 14).length ∧ (byteAt (bytesFR13.drop 14) 0).toNat / 16 = 4 ∧
        (byteAt (bytesFR13.drop 14) 0).toNat % 16 = 6 ∧ byteAt (bytesFR13.drop 14) 9 = 1 ∧
        4 * 6 + 8 ≤ (bytesFR13.drop 14).length) ∧
      ¬4 * 6 + 8 ≤ ((bytesFR13.take 45).drop 14).length := by decide
/-- F5 and F15. -/
theorem witness_ForeignFrameIsNoMatchAndNoError :
    (14 ≤ (loaded bytesFR5).input.length ∧
        be16 (byteAt (loaded bytesFR5).input 12) (byteAt (loaded bytesFR5).input 13) = 0x86DD) ∧
      14 ≤ (loaded bytesFR15).input.length ∧
      be16 (byteAt (loaded bytesFR15).input 12) (byteAt (loaded bytesFR15).input 13) = 0x0800 ∧
      byteAt (loaded bytesFR15).input 23 ≠ 1 := by decide
theorem witness_ArpParseInvertsArpBuild :
    (arpProbeMessage tgt0 lhw0 lip0).hlen = 6 ∧ (arpProbeMessage tgt0 lhw0 lip0).plen = 4 ∧
      (bytesA1.drop 14).length = 28 ∧
      arpDecode (bytesA1.drop 14) = some (arpProbeMessage tgt0 lhw0 lip0) := by decide
theorem witness_ClassifyNeedsOnly82Bytes : 82 ≤ 82 := by decide

/-- Every command, from a state of its own, gives a next state; `MAGICS` in both ways. -/
theorem witness_CommandWritesOnlyItsRow :
    (∃ t, exec .magic operands = .next t) ∧ (∃ t, exec .arpreq operands = .next t) ∧
      (∃ t, exec .icmpreq operands = .next t) ∧ (∃ t, exec .cksum operands = .next t) ∧
      (∃ t, exec .magics (loaded textT1) = .next t ∧ t.status = 1) ∧
      (∃ t, exec .magics (loaded textT2) = .next t ∧ t.status ≠ 1) ∧
      (∃ t, exec .classify (loaded bytesA1) = .next t ∧ t.matchReg = 1) ∧
      ∃ t, exec .classify (loaded bytesFR12) = .next t ∧ t.matchReg = 2 :=
  ⟨⟨_, rfl⟩, ⟨_, rfl⟩, ⟨_, rfl⟩, ⟨_, rfl⟩,
    ⟨_, exec_magics_ok (m := ⟨0, 1, 2, 3, 4, 5⟩) (by rfl), rfl⟩,
    ⟨_, exec_magics_error (e := .parseFailure) (by rfl), by decide⟩,
    ⟨_, rfl, by decide⟩, _, rfl, by decide⟩
/-- Two different states that agree on what `MAGIC`, the probes and the input commands read. -/
theorem witness_CommandReadsOnlyItsRow :
    operands ≠ { operands with status := 1, olen := 7 } ∧
      operands.tgt = ({ operands with status := 1, olen := 7 } : State).tgt ∧
      operands.lhw = ({ operands with status := 1, olen := 7 } : State).lhw ∧
      operands.lip = ({ operands with status := 1, olen := 7 } : State).lip ∧
      (loaded textT1).input = ({ loaded textT1 with tgt := tgt0, olen := 7 } : State).input := by decide
theorem witness_StateChangesOnlyByItsWriters :
    ¬(host [.writeReg 2 (.six tgt0)]).nextIs .reset ∧
      ∃ t, step (host [.writeReg 2 (.six tgt0)]) = .next t ∧
        t.tgt ≠ (host [.writeReg 2 (.six tgt0)]).tgt :=
  ⟨by rintro ⟨rest, h⟩; exact absurd h (by simp [host]), _, rfl, by decide⟩
theorem witness_StepTakesOneTransaction :
    (host [.readReg 1]).pending = [.readReg 1] ∧ ∃ t, step (host [.readReg 1]) = .next t :=
  ⟨rfl, _, rfl⟩
theorem witness_StepStopsOnlyAtMeaninglessAccess :
    (host [.readReg 20]).nextIsMeaningful ∧ ¬(host [.readReg 21]).nextIsMeaningful := by
  constructor
  · intro t rest h
    simp only [host, List.cons.injEq] at h
    rw [← h.1]
    rfl
  · intro h
    exact absurd (h _ _ rfl) (by decide)
theorem witness_EveryStepKeepsTheMachineInvariant : built.Inv ∧ step built = .next built :=
  ⟨witness_built_meets_the_invariant, rfl⟩
theorem witness_EveryHostRunKeepsTheMachineInvariant :
    ∃ t : State, Host.Core.run core 2 (host [.writeReg 0 (.byte 0x05), .readReg 8]) = .next t ∧
      t.observed = [.reg 8 (.word 0)] :=
  ⟨_, rfl, by decide⟩

end Sys2Proof.Tests
end

section
/-! PROOFS. The wire formats of spec/30_encoding.md: every byte of a magic packet (R14, R87). -/

namespace Sys2Proof.Machine

/-- A repetition is periodic (R14): each of its bytes is the byte of the repeated sequence at the same
place within the period. -/
theorem getElem?_rep (s : List Byte) {n i : Nat} (h : i < n * s.length) :
    (rep s n)[i]? = s[i % s.length]? := by
  induction n generalizing i with
  | zero => omega
  | succ n ih =>
    rw [rep]
    rcases Nat.lt_or_ge i s.length with hfirst | hlater
    · rw [List.getElem?_append_left hfirst, Nat.mod_eq_of_lt hfirst]
    · have hrest : i - s.length < n * s.length := by rw [Nat.succ_mul] at h; omega
      rw [List.getElem?_append_right hlater, ih hrest, ← Nat.mod_eq_sub_mod hlater]

/-- R87, the synchronisation bytes. -/
theorem getElem?_magicPacket_sync (m : HwAddr) {i : Nat} (h : i < 6) :
    (magicPacket m)[i]? = some 0xFF := by
  have hsync : i < (rep [0xFF] magicSyncLen).length := by simpa [magicSyncLen] using h
  rw [magicPacket, List.getElem?_append_left hsync, getElem?_rep _ (by simpa using hsync)]
  simp [Nat.mod_one]

/-- R87, the repetitions of the address. -/
theorem getElem?_magicPacket_address (m : HwAddr) {i : Nat} (hlo : 6 ≤ i) (hhi : i < 102) :
    (magicPacket m)[i]? = (hwBytes m)[(i - 6) % 6]? := by
  have hsync : (rep [0xFF] magicSyncLen).length = 6 := by simp [magicSyncLen]
  have hrep : i - 6 < magicReps * (hwBytes m).length := by simp [magicReps]; omega
  rw [magicPacket, List.getElem?_append_right (by omega), hsync, getElem?_rep _ hrep, hwBytes_length]

/-- Settles O19: the length, the synchronisation bytes and the repeated address. -/
theorem magicPacketBytes : Obligations.MagicPacketBytes :=
  fun m => ⟨magicPacket_length m, fun _ h => getElem?_magicPacket_sync m h,
    fun _ hlo hhi => getElem?_magicPacket_address m hlo hhi⟩

end Sys2Proof.Machine
end

section
/-! PROOFS. The checksum unit of spec/40_checksum.md: the closed form of the end-around carry (R115) and
the verification identity (R114). -/

namespace Sys2Proof.Machine

/-! ### The closed form of `Fold` -/

/-- The end-around carry of a positive number is its representative in `1..0xFFFF` modulo `0xFFFF`
(R115): a turn takes away a multiple of `0xFFFF`, because `0x10000` is 1 modulo `0xFFFF`. -/
theorem foldCarry_eq {fuel t : Nat} (hfuel : t ≤ fuel) (hpos : 0 < t) :
    foldCarry fuel t = (t - 1) % 0xFFFF + 1 := by
  induction fuel generalizing t with
  | zero => omega
  | succ n ih =>
    rcases Nat.lt_or_ge 0xFFFF t with hcarry | hnone
    · have hlt := carry_lt hcarry
      rw [foldCarry_turn hcarry, ih (by omega) (by omega)]
      omega
    · rw [foldCarry_of_le _ hnone]
      omega

/-- R115, where some word is not zero. -/
theorem foldNat_of_pos {s : List Byte} (h : 0 < wordSum (completeOdd s)) :
    foldNat s = (wordSum (completeOdd s) - 1) % 0xFFFF + 1 :=
  foldCarry_eq (Nat.le_refl _) h

/-- R115, where every word is zero. -/
theorem foldNat_of_zero {s : List Byte} (h : wordSum (completeOdd s) = 0) : foldNat s = 0 := by
  rw [foldNat, h]
  rfl

/-! ### A 16-bit field at an even offset -/

/-- `be16` of the two bytes of `BE16(v)` is the number `v` (R14). -/
theorem be16_bytes (v : Word) : be16 (v.extractLsb' 8 8) (v.extractLsb' 0 8) = v.toNat := by
  have hword := congrArg BitVec.toNat (wordOfBytes_bytes v)
  have hhi := (v.extractLsb' 8 8).isLt
  have hlo := (v.extractLsb' 0 8).isLt
  simp only [wordOfBytes, be16, BitVec.toNat_ofNat] at hword ⊢
  omega

/-- A field at an even offset adds its number to the word sum of the rest (R110). -/
theorem wordSum_completeOdd_field {p : List Byte} (hp : p.length % 2 = 0) (v : Word) (r : List Byte) :
    wordSum (completeOdd (p ++ bytesOfWord v ++ r)) =
      wordSum p + v.toNat + wordSum (completeOdd r) := by
  have hfield : wordSum (bytesOfWord v) = v.toNat := by simp [bytesOfWord, wordSum, be16_bytes]
  have heven : (p ++ bytesOfWord v).length % 2 = 0 := by
    rw [List.length_append, bytesOfWord_length]
    omega
  rw [completeOdd_append _ _ heven, wordSum_append _ _ heven, wordSum_append _ _ hp, hfield]

/-- A sequence with a zero field at `o` is its first `o` bytes, the field and the rest. -/
theorem take_zeroField_drop {d : List Byte} {o : Nat} (h0 : d[o]? = some 0x00)
    (h1 : d[o + 1]? = some 0x00) : d.take o ++ bytesOfWord 0#16 ++ d.drop (o + 2) = d := by
  have htake : d.take (o + 2) = d.take o ++ bytesOfWord 0#16 := by
    rw [List.take_add_one, List.take_add_one, h0, h1, List.append_assoc]
    rfl
  rw [← htake, List.take_append_drop]

/-! ### The verification identity -/

/-- Where the word sum exceeds that of `s` by the number `Cksum(s)`, it is a positive multiple of
`0xFFFF`, and `Fold` is `0xFFFF` (R114). -/
theorem foldNat_of_wordSum_add_cksum {s r : List Byte}
    (h : wordSum (completeOdd r) = wordSum (completeOdd s) + (cksum s).toNat) :
    foldNat r = 0xFFFF := by
  rw [cksum_toNat] at h
  rcases Nat.eq_zero_or_pos (wordSum (completeOdd s)) with hzero | hpos
  · rw [foldNat_of_zero hzero] at h
    rw [foldNat_of_pos (by omega)]
    omega
  · rw [foldNat_of_pos hpos] at h
    rw [foldNat_of_pos (by omega)]
    omega

/-- Inserting the checksum in a zero field at an even offset adds its number to the word sum. -/
theorem wordSum_insert_cksum {d : List Byte} {o : Nat} (heven : o % 2 = 0) (h0 : d[o]? = some 0x00)
    (h1 : d[o + 1]? = some 0x00) :
    wordSum (completeOdd (d.take o ++ bytesOfWord (cksum d) ++ d.drop (o + 2))) =
      wordSum (completeOdd d) + (cksum d).toNat := by
  have hlen : (d.take o).length % 2 = 0 := by
    obtain ⟨hlt, -⟩ := List.getElem?_eq_some_iff.1 h0
    rwa [List.length_take_of_le (Nat.le_of_lt hlt)]
  have hzeroed := wordSum_completeOdd_field hlen 0#16 (d.drop (o + 2))
  rw [take_zeroField_drop h0 h1, BitVec.toNat_zero] at hzeroed
  rw [wordSum_completeOdd_field hlen, hzeroed]
  omega

/-- Settles O35: the words of `d` add up to those of `d0` and its checksum, so they fold to `0xFFFF`. -/
theorem insertedChecksumVerifies : Obligations.InsertedChecksumVerifies := by
  rintro d0 o heven h0 h1 d rfl
  have hfold := foldNat_of_wordSum_add_cksum (wordSum_insert_cksum heven h0 h1)
  constructor <;> apply BitVec.eq_of_toNat_eq
  · rw [fold_toNat, hfold]
    rfl
  · rw [cksum_toNat, hfold]
    rfl

end Sys2Proof.Machine
end

section
/-! PROOFS. The magic-packet builder of spec/41_magic.md: the packet `MAGIC` leaves (R121), `MAGICS` as
`SET TGT; MAGIC` (R124), and how an address string parses or fails (R122 to R126). -/

namespace Sys2Proof.Machine

/-! ### What `MAGIC` leaves -/

/-- `STATUS` is no part of the packet. -/
@[simp] theorem outByte_setStatus (s : State) (c : StatusCode) (i : Nat) :
    (s.setStatus c).outByte i = s.outByte i := rfl

/-- R121: what the host finds in `OBUF` after `MAGIC` is the magic packet, byte for byte. -/
theorem outByte_setPacket_magicPacket (s : State) (m : HwAddr) (i : Nat) :
    (s.setPacket (magicPacket m)).outByte i = (magicPacket m)[i]? :=
  s.outByte_setPacket (by simp) i

/-- R121: a build of a magic packet that completes writes `OBUF`, `OLEN` and `STATUS` only. -/
theorem setPacket_magicPacket_frame (s : State) (m : HwAddr) :
    (s.setPacket (magicPacket m)).setStatus .ok =
      { s with obuf := Memory.ofBytes 0 (magicPacket m), olen := 102, status := 1 } := by
  simp [State.setPacket, State.setStatus, statusBits]

/-- R87: copy `k` of the address, byte `j` of it. -/
theorem getElem?_magicPacket_copy (m : HwAddr) {k j : Nat} (hk : k < 16) (hj : j < 6) :
    (magicPacket m)[6 + 6 * k + j]? = (hwBytes m)[j]? := by
  have hplace : (6 + 6 * k + j - 6) % 6 = j := by omega
  rw [getElem?_magicPacket_address m (by omega) (by omega), hplace]

/-- Settles O20: the frame of the build, and the packet's bytes read back from `OBUF`. -/
theorem magicBuildsThePacketOfTgt : Obligations.MagicBuildsThePacketOfTgt := by
  refine ⟨rfl, fun s => ⟨_, exec_magic s, setPacket_magicPacket_frame s s.tgt, ?_, ?_⟩⟩
  · intro i hi
    rw [outByte_setStatus, outByte_setPacket_magicPacket, getElem?_magicPacket_sync _ hi]
  · intro k j hk hj
    rw [outByte_setStatus, outByte_setPacket_magicPacket, getElem?_magicPacket_copy _ hk hj]

/-! ### How an address string parses -/

/-- R124: a string whose segments are the six bytes of an address spells that address. -/
theorem parseAddress_of_segments {x : List Byte} {m : HwAddr}
    (h : (splitColons x).map hexSeg = (hwBytes m).map some) : parseAddress x = .ok m := by
  have hsegs : hexSegs (splitColons x) = some (hwBytes m) := (hexSegs_eq_some _ _).2 h
  simp [parseAddress, hsegs, hwBytes]

/-- R172: one invalid segment, wherever it stands, is a ParseFailure. -/
theorem parseAddress_of_invalid_segment {x : List Byte} (h : ∃ g ∈ splitColons x, hexSeg g = none) :
    parseAddress x = .error .parseFailure := by
  simp [parseAddress, (hexSegs_eq_none _).2 h]

/-- R173: valid segments that are not six are an InvalidAddressLength. -/
theorem parseAddress_of_not_six {x : List Byte} (hvalid : ∀ g ∈ splitColons x, hexSeg g ≠ none)
    (hlen : (splitColons x).length ≠ 6) : parseAddress x = .error .invalidAddressLength := by
  unfold parseAddress
  split
  case h_1 hnone =>
    obtain ⟨g, hg, hbad⟩ := (hexSegs_eq_none _).1 hnone
    exact absurd hbad (hvalid g hg)
  case h_2 hsix => exact absurd (hexSegs_length hsix).symm hlen
  case h_3 => rfl

/-- R124: where the string spells `m`, `MAGICS` is `SET TGT m; MAGIC`. -/
theorem exec_magics_eq_exec_magic {s : State} {m : HwAddr} (h : parseAddress s.input = .ok m) :
    exec .magics s = exec .magic (s.setTgt m) :=
  (exec_magics_ok h).trans (exec_magic (s.setTgt m)).symm

/-! ### The document's properties (R126) -/

/-- Settles O23: (1) is O20 with `TGT` set; (2) the string spells 00:01:02:03:04:05, so `MAGICS` is `MAGIC`
on that `TGT`; (3) the segment "GG" is invalid; (4) the segments are valid and five. -/
theorem builderMeetsTheDocumentsProperties : Obligations.BuilderMeetsTheDocumentsProperties := by
  refine fun s => ⟨fun m => ?packet, fun hs => ?equal, fun hs => ?invalid, fun hs => ?five⟩
  case packet =>
    obtain ⟨t, hexec, hframe, hsync, hcopies⟩ := magicBuildsThePacketOfTgt.2 { s with tgt := m }
    exact ⟨t, hexec, congrArg State.olen hframe, hsync, hcopies⟩
  case equal =>
    have hparse : parseAddress s.input = .ok ⟨0, 1, 2, 3, 4, 5⟩ :=
      parseAddress_of_segments (by rw [hs]; decide)
    have hmagic := exec_magic (s.setTgt ⟨0, 1, 2, 3, 4, 5⟩)
    exact ⟨_, _, (exec_magics_eq_exec_magic hparse).trans hmagic, hmagic, rfl, rfl, rfl⟩
  case invalid =>
    have hparse : parseAddress s.input = .error .parseFailure :=
      parseAddress_of_invalid_segment ⟨[0x47, 0x47], by rw [hs]; decide, by decide⟩
    exact exec_magics_error hparse
  case five =>
    have hparse : parseAddress s.input = .error .invalidAddressLength :=
      parseAddress_of_not_six (by rw [hs]; decide) (by rw [hs]; decide)
    exact exec_magics_error hparse

end Sys2Proof.Machine
end

section
/-! PROOFS. The ARP probe of spec/42_arp_probe.md as the classifier sees it (R133): what the parser reads
back from a built Ethernet frame (R80) and from a built ARP message (R82). -/

namespace Sys2Proof.Machine

/-! ### Reading a built Ethernet frame -/

/-- R80: the EtherType stands behind the two addresses. -/
@[simp] theorem wordAt_ethEncode_type (d s : HwAddr) (type : Word) (p : List Byte) :
    wordAt (ethEncode d s type p) 12 = type := wordOfBytes_bytes type

/-- R80: the payload is what follows the header. -/
@[simp] theorem drop_ethEncode_header (d s : HwAddr) (type : Word) (p : List Byte) :
    (ethEncode d s type p).drop ethHdrLen = p := rfl

/-- R151: an Ethernet frame of type ARP classifies as the message its payload parses to. -/
theorem classifyFrame_ethEncode_arp (d s : HwAddr) {p : List Byte} {m : ArpMessage}
    (h : arpDecode p = some m) : classifyFrame (ethEncode d s etherTypeArp p) = .arp m := by
  have hlen : ¬(ethEncode d s etherTypeArp p).length < ethHdrLen := by
    rw [ethEncode_length, ethHdrLen]
    omega
  rw [classifyFrame, if_neg hlen, if_pos (wordAt_ethEncode_type ..), drop_ethEncode_header, h]

/-! ### Reading a built ARP message -/

/-- R154: a message of the two address lengths the parser accepts parses back to itself, whatever bytes
follow. The addresses come back byte for byte; the three 16-bit fields by `wordOfBytes_bytes`. -/
theorem arpDecode_arpEncode_append {m : ArpMessage} (hh : m.hlen = arpHlen) (hp : m.plen = arpPlen)
    (z : List Byte) : arpDecode (arpEncode m ++ z) = some m := by
  have hlen : ¬(arpEncode m ++ z).length < arpLen := by
    rw [List.length_append, arpEncode_length, arpLen]
    omega
  have haddr : ¬(byteAt (arpEncode m ++ z) 4 ≠ arpHlen ∨ byteAt (arpEncode m ++ z) 5 ≠ arpPlen) :=
    not_or.2 ⟨not_not.2 hh, not_not.2 hp⟩
  have hhtype : wordAt (arpEncode m ++ z) 0 = m.htype := wordOfBytes_bytes m.htype
  have hptype : wordAt (arpEncode m ++ z) 2 = m.ptype := wordOfBytes_bytes m.ptype
  have hoper : wordAt (arpEncode m ++ z) 6 = m.oper := wordOfBytes_bytes m.oper
  rw [arpDecode, if_neg hlen, if_neg haddr, hhtype, hptype, hoper]
  rfl

/-- R130, R154: the message of the ARP probe parses back to itself. -/
theorem arpDecode_arpProbeMessage (tgt lhw : HwAddr) (lip : IpAddr) :
    arpDecode (arpEncode (arpProbeMessage tgt lhw lip)) = some (arpProbeMessage tgt lhw lip) := by
  simpa using arpDecode_arpEncode_append (m := arpProbeMessage tgt lhw lip) rfl rfl []

/-- Settles O28: the probe frame is an Ethernet frame of type ARP around the probe's message, and that
message parses back to itself. -/
theorem arpProbeClassifiesAsItsMessage : Obligations.ArpProbeClassifiesAsItsMessage :=
  fun tgt lhw lip =>
    classifyFrame_ethEncode_arp hwBroadcast lhw (arpDecode_arpProbeMessage tgt lhw lip)

end Sys2Proof.Machine
end

section
/-! PROOFS. The parse direction of spec/44_classify.md: reading a field of a byte sequence, what the two
parsers accept (R153, R155), what the classifier answers (R151), that trailing bytes are ignored (R150), the
inverse of ARP build (R154) and foreign traffic (R157). -/

namespace Sys2Proof.Machine

/-! ### Reading a byte sequence -/

/-- Bytes appended behind a byte leave it as it is. -/
theorem byteAt_append {b : List Byte} {i : Nat} (h : i < b.length) (z : List Byte) :
    byteAt (b ++ z) i = byteAt b i := List.getD_append _ _ _ _ h

theorem byteAt_drop (b : List Byte) (n i : Nat) : byteAt (b.drop n) i = byteAt b (n + i) := by
  simp [byteAt]

/-- The bytes read one by one at the first `n` offsets are the first `n` bytes. -/
theorem map_byteAt_range {b : List Byte} {n : Nat} (h : n ≤ b.length) :
    (List.range n).map (byteAt b) = b.take n := by
  apply List.ext_getElem
  · simp [h]
  · intro i hi _
    have hib : i < b.length := by simp at hi; omega
    simp [byteAt, hib]

/-- R55: a 16-bit field is the number `be16` of its two bytes. -/
theorem wordAt_toNat (b : List Byte) (i : Nat) :
    (wordAt b i).toNat = be16 (byteAt b i) (byteAt b (i + 1)) := by
  have hhi := (byteAt b i).isLt
  have hlo := (byteAt b (i + 1)).isLt
  simp only [wordAt, wordOfBytes, be16, BitVec.toNat_ofNat]
  omega

/-- R55: a field holds a value where its two bytes make that number. -/
theorem wordAt_eq_iff {b : List Byte} {i : Nat} {v : Word} :
    wordAt b i = v ↔ be16 (byteAt b i) (byteAt b (i + 1)) = v.toNat := by
  rw [← wordAt_toNat, BitVec.toNat_inj]

/-! ### What the ARP parser accepts -/

/-- The nine fields at their offsets (R82, R153). -/
def arpFieldsAt (p : List Byte) : ArpMessage where
  htype := wordAt p 0
  ptype := wordAt p 2
  hlen := byteAt p 4
  plen := byteAt p 5
  oper := wordAt p 6
  sha := hwAt p 8
  spa := ipAt p 14
  tha := hwAt p 18
  tpa := ipAt p 24

/-- R153: the two checks of the ARP parser, and the message it answers. -/
theorem arpDecode_eq_some {p : List Byte} {m : ArpMessage} :
    arpDecode p = some m ↔
      28 ≤ p.length ∧ (byteAt p 4 = 6 ∧ byteAt p 5 = 4) ∧ arpFieldsAt p = m := by
  simp only [arpDecode, Option.ite_none_left_eq_some, Option.some.injEq, not_lt, not_or, not_not]
  rfl

/-- R82: building a message from the fields of a sequence gives back its first 28 bytes. -/
theorem arpEncode_arpFieldsAt {p : List Byte} (h : 28 ≤ p.length) :
    arpEncode (arpFieldsAt p) = p.take 28 := by
  rw [← map_byteAt_range h]
  simp only [arpEncode, arpFieldsAt, wordAt, bytesOfWord_wordOfBytes]
  rfl

/-- R154: what parses to `m` starts with the 28 bytes `m` is built as. -/
theorem arpEncode_of_arpDecode {p : List Byte} {m : ArpMessage} (h : arpDecode p = some m) :
    arpEncode m = p.take 28 := by
  obtain ⟨hlen, -, rfl⟩ := arpDecode_eq_some.1 h
  exact arpEncode_arpFieldsAt hlen

/-- R153: bytes behind a message that parses are ignored. -/
theorem arpDecode_append {p : List Byte} {m : ArpMessage} (h : arpDecode p = some m)
    (z : List Byte) : arpDecode (p ++ z) = some m := by
  obtain ⟨hh, hp⟩ := arpDecode_lengths h
  have hsplit : p ++ z = arpEncode m ++ (p.drop 28 ++ z) := by
    rw [arpEncode_of_arpDecode h, ← List.append_assoc, List.take_append_drop]
  rw [hsplit, arpDecode_arpEncode_append hh hp]

/-- Settles O42: the left inverse, alone and as the payload of an ARP frame; and a sequence of 28 bytes is
its own first 28 bytes. -/
theorem arpParseInvertsArpBuild : Obligations.ArpParseInvertsArpBuild := by
  refine ⟨fun m z hh hp => ?_, fun p m hlen hm => ?_⟩
  · have hparse := arpDecode_arpEncode_append hh hp z
    exact ⟨hparse, fun d s => classifyFrame_ethEncode_arp d s hparse⟩
  · rw [arpEncode_of_arpDecode hm, List.take_of_length_le hlen.le]

/-! ### What the IPv4 and ICMP parser accepts -/

/-- R155: the five checks, and the ICMP type byte behind the header. -/
theorem ipv4IcmpType_eq_some {p : List Byte} {t : Byte} :
    ipv4IcmpType p = some t ↔
      20 ≤ p.length ∧ ipVersion p = 4 ∧ 5 ≤ ipHeaderWords p ∧ byteAt p 9 = 1 ∧
        4 * ipHeaderWords p + 8 ≤ p.length ∧ byteAt p (4 * ipHeaderWords p) = t := by
  simp only [ipv4IcmpType, Option.ite_none_left_eq_some, Option.some.injEq, not_lt, not_not]
  rfl

/-- R155: bytes behind a datagram that parses are ignored. -/
theorem ipv4IcmpType_append {p : List Byte} {t : Byte} (h : ipv4IcmpType p = some t)
    (z : List Byte) : ipv4IcmpType (p ++ z) = some t := by
  obtain ⟨hlen, hversion, hwords, hproto, hroom, htype⟩ := ipv4IcmpType_eq_some.1 h
  have hfirst : byteAt (p ++ z) 0 = byteAt p 0 := byteAt_append (by omega) z
  have hsame : ipHeaderWords (p ++ z) = ipHeaderWords p := by rw [ipHeaderWords, hfirst, ipHeaderWords]
  rw [ipv4IcmpType_eq_some, hsame, ipVersion, hfirst, byteAt_append (by omega),
    byteAt_append (by omega), List.length_append]
  exact ⟨by omega, hversion, hwords, hproto, by omega, htype⟩

/-! ### What the classifier answers -/

/-- R152: without a whole Ethernet header there is no match. -/
theorem classifyFrame_of_short {b : List Byte} (h : b.length < ethHdrLen) :
    classifyFrame b = .none := if_pos h

/-- R151: under type ARP the ARP parser decides. -/
theorem classifyFrame_of_arpType {b : List Byte} (hlen : ethHdrLen ≤ b.length)
    (htype : wordAt b 12 = etherTypeArp) :
    classifyFrame b = (arpDecode (b.drop ethHdrLen)).elim .none .arp := by
  rw [classifyFrame, if_neg (Nat.not_lt.2 hlen), if_pos htype]
  cases arpDecode (b.drop ethHdrLen) <;> rfl

/-- R151: under type IPv4 the IPv4 and ICMP parser decides, and the source address is reported. -/
theorem classifyFrame_of_ipv4Type {b : List Byte} (hlen : ethHdrLen ≤ b.length)
    (htype : wordAt b 12 = etherTypeIpv4) :
    classifyFrame b = (ipv4IcmpType (b.drop ethHdrLen)).elim .none (.icmp · (hwAt b 6)) := by
  have hnotArp : wordAt b 12 ≠ etherTypeArp := htype ▸ by decide
  rw [classifyFrame, if_neg (Nat.not_lt.2 hlen), if_neg hnotArp, if_pos htype]
  cases ipv4IcmpType (b.drop ethHdrLen) <;> rfl

/-- R157: any other type is no match. -/
theorem classifyFrame_of_otherType {b : List Byte} (hlen : ethHdrLen ≤ b.length)
    (harp : wordAt b 12 ≠ etherTypeArp) (hipv4 : wordAt b 12 ≠ etherTypeIpv4) :
    classifyFrame b = .none := by
  rw [classifyFrame, if_neg (Nat.not_lt.2 hlen), if_neg harp, if_neg hipv4]

/-- R150: bytes behind a frame that matches are ignored. They leave its header and what its payload
parses to as they are, so the same layers match. -/
theorem classifyFrame_append {b : List Byte} (h : classifyFrame b ≠ .none) (z : List Byte) :
    classifyFrame (b ++ z) = classifyFrame b := by
  rcases Nat.lt_or_ge b.length ethHdrLen with hshort | hlen
  · exact absurd (classifyFrame_of_short hshort) h
  have hlong : ethHdrLen ≤ (b ++ z).length := by
    rw [List.length_append]
    omega
  have hbyte {i : Nat} (hi : i < 14) : byteAt (b ++ z) i = byteAt b i :=
    byteAt_append (Nat.lt_of_lt_of_le hi hlen) z
  have htype : wordAt (b ++ z) 12 = wordAt b 12 := by simp [wordAt, hbyte]
  have hsource : hwAt (b ++ z) 6 = hwAt b 6 := by simp [hwAt, hbyte]
  have hpayload : (b ++ z).drop ethHdrLen = b.drop ethHdrLen ++ z :=
    List.drop_append_of_le_length hlen
  by_cases harp : wordAt b 12 = etherTypeArp
  · rw [classifyFrame_of_arpType hlen harp] at h ⊢
    rw [classifyFrame_of_arpType hlong (htype.trans harp), hpayload]
    cases hm : arpDecode (b.drop ethHdrLen) with
    | none => simp [hm] at h
    | some m => rw [arpDecode_append hm]
  by_cases hipv4 : wordAt b 12 = etherTypeIpv4
  · rw [classifyFrame_of_ipv4Type hlen hipv4] at h ⊢
    rw [classifyFrame_of_ipv4Type hlong (htype.trans hipv4), hpayload, hsource]
    cases ht : ipv4IcmpType (b.drop ethHdrLen) with
    | none => simp [ht] at h
    | some t => rw [ipv4IcmpType_append ht]
  · exact absurd (classifyFrame_of_otherType hlen harp hipv4) h

/-! ### The command -/

/-- R150: on no match `CLASSIFY` writes `MATCH` and `STATUS` only. -/
theorem exec_classify_none {s : State} (h : classifyFrame s.input = .none) :
    exec .classify s = .next { s with matchReg := 0, status := 1 } := by
  rw [exec_classify, h]
  rfl

/-- Settles O38: the three verdicts from what `CLASSIFY` does, the rest from the classifier. -/
theorem classifyReportsItsVerdict : Obligations.ClassifyReportsItsVerdict := by
  refine ⟨rfl, fun s => ⟨rfl, fun hshort => ?short, classifyFrame_append, fun m hm => ?arp,
    fun t src ht => ?icmp, exec_classify_none⟩⟩
  case short => exact classifyFrame_of_short (by rwa [State.input_length])
  case arp =>
    rw [exec_classify, hm]
    rfl
  case icmp =>
    rw [exec_classify, ht]
    rfl

/-! ### Foreign traffic -/

/-- R155: a datagram of another protocol than ICMP does not parse. -/
theorem ipv4IcmpType_of_otherProtocol {p : List Byte} (h : byteAt p 9 ≠ 1) :
    ipv4IcmpType p = none := by
  refine Option.eq_none_iff_forall_ne_some.2 fun t ht => ?_
  obtain ⟨-, -, -, hproto, -, -⟩ := ipv4IcmpType_eq_some.1 ht
  exact h hproto

/-- R157: an IPv4 frame of another protocol than ICMP is no match; the protocol is byte 9 of the payload,
byte 23 of the frame. -/
theorem classifyFrame_of_otherProtocol {b : List Byte} (hlen : ethHdrLen ≤ b.length)
    (htype : wordAt b 12 = etherTypeIpv4) (hproto : byteAt b 23 ≠ 1) : classifyFrame b = .none := by
  have hnone : ipv4IcmpType (b.drop ethHdrLen) = none :=
    ipv4IcmpType_of_otherProtocol (by rwa [byteAt_drop])
  rw [classifyFrame_of_ipv4Type hlen htype, hnone]
  rfl

/-- Settles O41: another type, or IPv4 with another protocol, is no match; and then `CLASSIFY` writes
`MATCH` 0 and `STATUS` 1 only. -/
theorem foreignFrameIsNoMatchAndNoError : Obligations.ForeignFrameIsNoMatchAndNoError := by
  intro s hlen hforeign
  have hnone : classifyFrame s.input = .none := by
    rcases hforeign with ⟨hnotIpv4, hnotArp⟩ | ⟨hipv4, hproto⟩
    · exact classifyFrame_of_otherType hlen (mt wordAt_eq_iff.1 hnotArp) (mt wordAt_eq_iff.1 hnotIpv4)
    · exact classifyFrame_of_otherProtocol hlen (wordAt_eq_iff.2 hipv4) hproto
  exact ⟨hnone, exec_classify_none hnone⟩

end Sys2Proof.Machine
end

section
/-! PROOFS. The commands, said once more (spec/30_encoding.md R72): the state each leaves, as named updates,
and what no command touches. -/

namespace Sys2Proof.Machine

/-- Everything a command can do, one case per end of a command (R121, R124, R130, R140, R112, R150, R170). -/
theorem exec_cases {i : Instr} {s t : State} (h : exec i s = .next t) :
    (i = .magic ∧ t = (s.setPacket (magicPacket s.tgt)).setStatus .ok) ∨
    (∃ m, i = .magics ∧ t = ((s.setTgt m).setPacket (magicPacket m)).setStatus .ok) ∨
    (∃ c, i = .magics ∧ (c = .parseFailure ∨ c = .invalidAddressLength) ∧ t = s.setStatus c) ∨
    (i = .arpreq ∧ t = (s.setPacket (arpProbe s.tgt s.lhw s.lip)).setStatus .ok) ∨
    (i = .icmpreq ∧ t = (s.setPacket (icmpProbe Config.params s.tgt s.lhw s.lip)).setStatus .ok) ∨
    (i = .cksum ∧ t = (s.setSums (fold s.input)).setStatus .ok) ∨
    ∃ v, i = .classify ∧ v = classifyFrame s.input ∧
      t = ((s.setReport v).setMatch (verdictKind v)).setStatus .ok := by
  cases i with
  | magic =>
    cases (exec_magic s).symm.trans h
    exact .inl ⟨rfl, rfl⟩
  | magics =>
    rcases exec_magics_cases s with ⟨m, -, hend⟩ | hend | hend <;> cases hend.symm.trans h
    · exact .inr (.inl ⟨m, rfl, rfl⟩)
    · exact .inr (.inr (.inl ⟨_, rfl, .inl rfl, rfl⟩))
    · exact .inr (.inr (.inl ⟨_, rfl, .inr rfl, rfl⟩))
  | arpreq =>
    cases (exec_arpreq s).symm.trans h
    exact .inr (.inr (.inr (.inl ⟨rfl, rfl⟩)))
  | icmpreq =>
    cases (exec_icmpreq s).symm.trans h
    exact .inr (.inr (.inr (.inr (.inl ⟨rfl, rfl⟩))))
  | cksum =>
    cases (exec_cksum s).symm.trans h
    exact .inr (.inr (.inr (.inr (.inr (.inl ⟨rfl, rfl⟩)))))
  | classify =>
    cases (exec_classify s).symm.trans h
    exact .inr (.inr (.inr (.inr (.inr (.inr ⟨_, rfl, rfl, rfl⟩)))))

end Sys2Proof.Machine
end

section
/-! PROOFS. The invariant of the machine: it holds right after reset and every step keeps it
(spec/10_state.md R24, R26, R27, R29 to R32; spec/30_encoding.md R83), so it holds along every run. -/

namespace Sys2Proof.Machine

/-! ### The host's side

The invariant does not speak of the operand registers, of the host's transactions and readings or of the
counters of free values. -/

/-- The invariant does not depend on the fields it does not name. -/
theorem State.Inv.of_host_fields {s : State} (hs : s.Inv) (tgt lhw : HwAddr) (lip : IpAddr)
    (pending : List Transaction) (observed : List Reading) (resets draws : Nat) :
    ({ s with
      tgt := tgt, lhw := lhw, lip := lip, pending := pending, observed := observed
      resets := resets, draws := draws } : State).Inv :=
  { hs with idle_untouched := fun hidle => { hs.idle_untouched hidle with } }

theorem State.Inv.setTgt {s : State} (hs : s.Inv) (a : HwAddr) : (s.setTgt a).Inv :=
  hs.of_host_fields ..

theorem State.Inv.setLhw {s : State} (hs : s.Inv) (a : HwAddr) : (s.setLhw a).Inv :=
  hs.of_host_fields ..

theorem State.Inv.setLip {s : State} (hs : s.Inv) (a : IpAddr) : (s.setLip a).Inv :=
  hs.of_host_fields ..

theorem State.Inv.setPending {s : State} (hs : s.Inv) (ts : List Transaction) :
    (s.setPending ts).Inv :=
  hs.of_host_fields ..

theorem State.Inv.observe {s : State} (hs : s.Inv) (r : Reading) : (s.observe r).Inv :=
  hs.of_host_fields ..

theorem State.Inv.countDraw {s : State} (hs : s.Inv) : s.countDraw.Inv :=
  hs.of_host_fields ..

/-- R26: `ILEN` takes only lengths that fit. -/
theorem State.Inv.setIlen {s : State} (hs : s.Inv) {n : Word}
    (hn : n.toNat ≤ Config.params.ibufSize) : (s.setIlen n).Inv :=
  { hs with
    ilen_le := hn
    idle_untouched := fun hidle => { hs.idle_untouched hidle with } }

/-- R28: a host write inside `IBUF` keeps the buffer canonical and inside its size. -/
theorem State.Inv.writeIn {s : State} (hs : s.Inv) {a : Nat} (ha : a < Config.params.ibufSize)
    (b : Byte) : (s.setIbuf (s.ibuf.write a b)).Inv :=
  { hs with
    idle_untouched := fun hidle => { hs.idle_untouched hidle with }
    ibuf_wf := Memory.write_wf hs.ibuf_wf a b
    ibuf_inside := fun c hc => by
      rcases Memory.mem_write hc with rfl | hold
      · exact ha
      · exact hs.ibuf_inside c hold }

/-! ### Reset -/

/-- Settles O51: every register is zero, no command has run and both buffers are empty. -/
theorem resetMeetsTheMachineInvariant : Obligations.ResetMeetsTheMachineInvariant where
  ilen_le := Nat.zero_le _
  olen_le := Nat.zero_le _
  olen_packet := List.mem_cons_self
  status_legal := by decide
  match_legal := by decide
  sums := .inr ⟨rfl, rfl⟩
  arp_lengths := fun hmatch => absurd hmatch (by decide)
  idle_untouched := fun _ => ⟨rfl, rfl, rfl, rfl, rfl, rfl, rfl⟩
  ibuf_wf := List.Pairwise.nil
  ibuf_inside := fun _ hmem => nomatch hmem
  obuf_wf := List.Pairwise.nil
  obuf_packet := fun _ => by simp [State.reset]

theorem State.platformReset_inv (s : State) : s.platformReset.Inv :=
  State.Inv.of_host_fields resetMeetsTheMachineInvariant ..

/-! ### The ends of a command -/

/-- Every code of `STATUS` is legal (R24). -/
theorem statusBits_le (c : StatusCode) : (statusBits c).toNat ≤ 4 := by cases c <;> decide

/-- Every kind of `MATCH` is legal (R31). -/
theorem matchBits_le (k : MatchKind) : (matchBits k).toNat ≤ 2 := by cases k <;> decide

/-- Only the code IDLE is 0 (R24). -/
theorem statusBits_ne_zero {c : StatusCode} : c ≠ .idle → statusBits c ≠ 0 := by
  cases c <;> decide

theorem statusBits_ok_ne_zero : statusBits .ok ≠ 0 := statusBits_ne_zero (by decide)

/-- A command that ends with an error writes a code other than IDLE (R170). -/
theorem State.Inv.setStatus {s : State} (hs : s.Inv) {c : StatusCode} (hc : c ≠ .idle) :
    (s.setStatus c).Inv :=
  { hs with
    status_legal := statusBits_le c
    idle_untouched := fun hidle => absurd hidle (statusBits_ne_zero hc) }

/-- R27: every frame a command builds has one of the lengths of R27, and they fit `OBUF`. -/
theorem packetLengths_le {n : Nat} (h : n ∈ packetLengths) : n ≤ Config.params.obufSize := by
  obtain ⟨-, hmax, -⟩ := Config.params_wf
  simp only [packetLengths, List.mem_cons, List.not_mem_nil, or_false] at h
  omega

theorem packetLengths_lt {n : Nat} (h : n ∈ packetLengths) : n < 65536 := by
  have hfit := packetLengths_le h
  obtain ⟨-, -, hsize⟩ := Config.params_wf
  omega

/-- R27, R29: a command that builds a frame leaves its length in `OLEN` and exactly its bytes in `OBUF`. -/
theorem State.Inv.setPacket {s : State} (hs : s.Inv) {f : List Byte}
    (hf : f.length ∈ packetLengths) : ((s.setPacket f).setStatus .ok).Inv := by
  have holen : (BitVec.ofNat 16 f.length).toNat = f.length := by
    rw [BitVec.toNat_ofNat, Nat.mod_eq_of_lt (packetLengths_lt hf)]
  exact
    { hs with
      olen_le := holen.symm ▸ packetLengths_le hf
      olen_packet := holen.symm ▸ hf
      status_legal := statusBits_le .ok
      idle_untouched := fun hidle => absurd hidle statusBits_ok_ne_zero
      obuf_wf := Memory.ofBytes_wf 0 f
      obuf_packet := fun a => by
        show ((Memory.ofBytes 0 f).read a).isSome ↔ a < (BitVec.ofNat 16 f.length).toNat
        rw [holen, Memory.read_ofBytes]
        simp }

theorem magicPacket_length_mem (m : HwAddr) : (magicPacket m).length ∈ packetLengths := by
  simp [packetLengths]

theorem arpProbe_length_mem (tgt lhw : HwAddr) (lip : IpAddr) :
    (arpProbe tgt lhw lip).length ∈ packetLengths := by
  simp [packetLengths]

theorem icmpProbe_length_mem (tgt lhw : HwAddr) (lip : IpAddr) :
    (icmpProbe Config.params tgt lhw lip).length ∈ packetLengths := by
  simp [packetLengths]

/-- R30: a word and its complement add up to `0xFFFF`. -/
theorem toNat_not_add_toNat (f : Word) : (~~~f).toNat + f.toNat = 0xFFFF := by
  have := f.isLt
  rw [BitVec.toNat_not]
  omega

/-- R30: `CKSUM` leaves a word and its complement. -/
theorem State.Inv.setSums {s : State} (hs : s.Inv) (f : Word) :
    ((s.setSums f).setStatus .ok).Inv :=
  { hs with
    status_legal := statusBits_le .ok
    idle_untouched := fun hidle => absurd hidle statusBits_ok_ne_zero
    sums := .inl (toNat_not_add_toNat f) }

/-- R31, R32: `CLASSIFY` leaves the kind of its verdict, and on an ARP match the lengths the parser has
checked. -/
theorem State.Inv.setReport {s : State} (hs : s.Inv) {b : List Byte} {v : Verdict}
    (hv : v = classifyFrame b) :
    (((s.setReport v).setMatch (verdictKind v)).setStatus .ok).Inv := by
  cases v with
  | none =>
    exact
      { hs with
        status_legal := statusBits_le .ok
        match_legal := matchBits_le .none
        arp_lengths := fun hmatch => absurd hmatch (by decide : matchBits .none ≠ 1)
        idle_untouched := fun hidle => absurd hidle statusBits_ok_ne_zero }
  | arp m =>
    exact
      { hs with
        status_legal := statusBits_le .ok
        match_legal := matchBits_le .arp
        arp_lengths := fun _ => classifyFrame_arp hv.symm
        idle_untouched := fun hidle => absurd hidle statusBits_ok_ne_zero }
  | icmp t src =>
    exact
      { hs with
        status_legal := statusBits_le .ok
        match_legal := matchBits_le .icmp
        arp_lengths := fun hmatch => absurd hmatch (by decide : matchBits .icmp ≠ 1)
        idle_untouched := fun hidle => absurd hidle statusBits_ok_ne_zero }

/-! ### Commands, transactions, steps and runs -/

/-- Every command keeps the invariant. -/
theorem exec_keeps_inv {i : Instr} {s t : State} (hs : s.Inv) (h : exec i s = .next t) : t.Inv := by
  rcases exec_cases h with ⟨-, rfl⟩ | ⟨m, -, rfl⟩ | ⟨c, -, hc, rfl⟩ | ⟨-, rfl⟩ | ⟨-, rfl⟩ |
    ⟨-, rfl⟩ | ⟨v, -, hv, rfl⟩
  · exact hs.setPacket (magicPacket_length_mem _)
  · exact (hs.setTgt m).setPacket (magicPacket_length_mem m)
  · exact hs.setStatus (by rcases hc with rfl | rfl <;> decide)
  · exact hs.setPacket (arpProbe_length_mem ..)
  · exact hs.setPacket (icmpProbe_length_mem ..)
  · exact hs.setSums _
  · exact hs.setReport hv

/-- A write of any byte to `CMD` keeps the invariant. -/
theorem runCommand_keeps_inv {c : Byte} {s t : State} (hs : s.Inv) (h : runCommand c s = .next t) :
    t.Inv := by
  rcases runCommand_cases c s with ⟨-, hillegal⟩ | ⟨i, -, hcommand⟩
  · cases hillegal.symm.trans h
    exact hs.setStatus (by decide)
  · exact exec_keeps_inv hs (hcommand ▸ h)

/-- Every transaction keeps the invariant. -/
theorem perform_keeps_inv {x : Transaction} {s t : State} (hs : s.Inv) (h : perform x s = .next t) :
    t.Inv := by
  rcases perform_cases h with ⟨c, -, hc⟩ | ⟨a, -, rfl⟩ | ⟨a, -, rfl⟩ | ⟨a, -, rfl⟩ |
    ⟨n, -, hn, rfl⟩ | ⟨a, b, -, ha, rfl⟩ | rfl | ⟨r, rfl⟩ | ⟨r, rfl⟩ | ⟨-, rfl⟩
  · exact runCommand_keeps_inv hs hc
  · exact hs.setTgt a
  · exact hs.setLhw a
  · exact hs.setLip a
  · exact hs.setIlen hn
  · exact hs.writeIn ha b
  · exact hs
  · exact hs.observe r
  · exact (hs.observe r).countDraw
  · exact s.platformReset_inv

/-- Settles O52: a step is nothing or one transaction, and each transaction keeps the invariant. -/
theorem everyStepKeepsTheMachineInvariant : Obligations.EveryStepKeepsTheMachineInvariant := by
  intro s t hs h
  rcases step_cases h with ⟨-, rfl⟩ | ⟨x, rest, -, hx⟩
  · exact hs
  · exact perform_keeps_inv (hs.setPending rest) hx

/-- A run that gives a next state is a step that does, and the rest of the run. -/
theorem core_run_succ_cases {n : Nat} {s t : State} (h : Host.Core.run core (n + 1) s = .next t) :
    ∃ s', step s = .next s' ∧ Host.Core.run core n s' = .next t := by
  cases hstep : step s with
  | next s' => exact ⟨s', rfl, (core_run_next hstep).symm.trans h⟩
  | fault r => nomatch r
  | refused r => nomatch (core_run_refused hstep).symm.trans h

/-- What every step keeps, every run keeps. -/
theorem core_run_keeps {P : State → Prop} (hstep : ∀ s t, P s → step s = .next t → P t) {n : Nat}
    {s t : State} (hs : P s) (h : Host.Core.run core n s = .next t) : P t := by
  induction n generalizing s with
  | zero =>
    cases h
    exact hs
  | succ n ih =>
    obtain ⟨s', hfirst, hrest⟩ := core_run_succ_cases h
    exact ih (hstep s s' hs hfirst) hrest

/-- Settles O53: the reset state meets the invariant whatever is pending, and every step keeps it. -/
theorem everyHostRunKeepsTheMachineInvariant : Obligations.EveryHostRunKeepsTheMachineInvariant :=
  fun script _ _ hrun =>
    core_run_keeps everyStepKeepsTheMachineInvariant
      (State.Inv.setPending resetMeetsTheMachineInvariant script) hrun

end Sys2Proof.Machine
end

section
/-! PROOFS. The address string of spec/41_magic.md: splitting at colons loses nothing (R122), which segments
are valid and what they spell (R123), and `MAGICS` on a string (R124, R172, R173). -/

namespace Sys2Proof.Machine

/-! ### Splitting at colons (R122) -/

theorem splitFrom_ne_nil (cur s : List Byte) : splitFrom cur s ≠ [] := by
  induction s generalizing cur with
  | nil => simp [splitFrom]
  | cons c r ih =>
    rw [splitFrom]
    split
    · simp
    · exact ih _

/-- Each colon ends a segment, and the last one ends with the string. -/
theorem splitFrom_length (cur s : List Byte) : (splitFrom cur s).length = 1 + s.count colon := by
  induction s generalizing cur with
  | nil => rfl
  | cons c r ih =>
    rw [splitFrom]
    split
    · rename_i hc
      rw [List.length_cons, ih, hc, List.count_cons_self]
      omega
    · rename_i hc
      rw [ih, List.count_cons_of_ne hc]

/-- A segment collects no colon. -/
theorem colon_notMem_of_mem_splitFrom {cur s : List Byte} (hcur : colon ∉ cur) :
    ∀ g ∈ splitFrom cur s, colon ∉ g := by
  induction s generalizing cur with
  | nil => simpa [splitFrom] using hcur
  | cons c r ih =>
    rw [splitFrom]
    split
    · exact List.forall_mem_cons.2 ⟨hcur, ih List.not_mem_nil⟩
    · rename_i hc
      exact ih (by simp [hcur, Ne.symm hc])

/-- The segments joined by colons are the characters collected so far and the string. -/
theorem intercalate_splitFrom (cur s : List Byte) :
    List.intercalate [colon] (splitFrom cur s) = cur ++ s := by
  induction s generalizing cur with
  | nil => simp [splitFrom]
  | cons c r ih =>
    rw [splitFrom]
    split
    · rename_i hc
      rw [List.intercalate_cons_of_ne_nil (splitFrom_ne_nil [] r), ih, hc]
      simp
    · rw [ih, List.append_assoc, List.singleton_append]

/-- Settles O25: the three facts, with no character collected yet. -/
theorem splitColonsLosesNothing : Obligations.SplitColonsLosesNothing :=
  fun s => ⟨splitFrom_length [] s, colon_notMem_of_mem_splitFrom List.not_mem_nil,
    intercalate_splitFrom [] s⟩

/-- A string without a colon is the rest of its last segment. -/
theorem splitFrom_of_colon_notMem {cur g : List Byte} (h : colon ∉ g) :
    splitFrom cur g = [cur ++ g] := by
  induction g generalizing cur with
  | nil => simp [splitFrom]
  | cons c r ih =>
    obtain ⟨hc, hr⟩ := not_or.1 (mt List.mem_cons.2 h)
    rw [splitFrom, if_neg (Ne.symm hc), ih hr, List.append_assoc, List.singleton_append]

/-- What stands before the first colon is the first segment. -/
theorem splitFrom_append_colon {cur g : List Byte} (h : colon ∉ g) (r : List Byte) :
    splitFrom cur (g ++ colon :: r) = (cur ++ g) :: splitFrom [] r := by
  induction g generalizing cur with
  | nil => simp [splitFrom]
  | cons c q ih =>
    obtain ⟨hc, hq⟩ := not_or.1 (mt List.mem_cons.2 h)
    rw [List.cons_append, splitFrom, if_neg (Ne.symm hc), ih hq, List.append_assoc,
      List.singleton_append]

/-! ### Hexadecimal segments (R123) -/

/-- R123: the digits are the characters `0` to `9`, `A` to `F` and `a` to `f`. -/
theorem hexDigit_ne_none {c : Byte} : hexDigit c ≠ none ↔ isHexChar c := by
  simp only [hexDigit, isHexChar]
  split_ifs <;> simp_all

theorem hexDigit_upperDigit : ∀ {d : Nat}, d < 16 → hexDigit (upperDigit d) = some d := by decide

theorem hexDigit_lowerDigit : ∀ {d : Nat}, d < 16 → hexDigit (lowerDigit d) = some d := by decide

/-- R123: a digit of either case has its value. -/
theorem hexDigit_of_digit {d : Nat} (hd : d < 16) {c : Byte}
    (hc : c = upperDigit d ∨ c = lowerDigit d) : hexDigit c = some d := by
  rcases hc with rfl | rfl
  · exact hexDigit_upperDigit hd
  · exact hexDigit_lowerDigit hd

theorem hexSeg_one (c : Byte) : hexSeg [c] = (hexDigit c).map (BitVec.ofNat 8) := by
  rw [hexSeg]
  cases hexDigit c <;> rfl

theorem hexSeg_two {c e : Byte} {d1 d0 : Nat} (hc : hexDigit c = some d1)
    (he : hexDigit e = some d0) : hexSeg [c, e] = some (BitVec.ofNat 8 (16 * d1 + d0)) := by
  rw [hexSeg, hc, he]

/-- R123: both characters of a valid segment of two are digits. -/
theorem hexSeg_two_ne_none {c e : Byte} :
    hexSeg [c, e] ≠ none ↔ hexDigit c ≠ none ∧ hexDigit e ≠ none := by
  rw [hexSeg]
  cases hexDigit c <;> cases hexDigit e <;> simp

/-- R123: the grammar of a segment. -/
theorem hexSeg_ne_none {g : List Byte} :
    hexSeg g ≠ none ↔ (g.length = 1 ∨ g.length = 2) ∧ ∀ c ∈ g, isHexChar c := by
  match g with
  | [] => simp [hexSeg]
  | [c] => simp [hexSeg_one, ← hexDigit_ne_none]
  | [c, e] => simp [hexSeg_two_ne_none, ← hexDigit_ne_none]
  | _ :: _ :: _ :: _ => simp [hexSeg]

/-- Settles O26: the grammar, and the values of one and of two digits. -/
theorem hexSegmentGrammarAndValue : Obligations.HexSegmentGrammarAndValue := by
  refine ⟨fun _ => hexSeg_ne_none, fun d hd c hc => ?one, fun d e hd he c f hc hf => ?two⟩
  case one => rw [hexSeg_one, hexDigit_of_digit hd hc, Option.map_some]
  case two => exact hexSeg_two (hexDigit_of_digit hd hc) (hexDigit_of_digit he hf)

/-! ### `MAGICS` on a string (R124, R172, R173) -/

@[simp] theorem packet_setStatus (s : State) (c : StatusCode) : (s.setStatus c).packet = s.packet :=
  rfl

/-- Settles O21: the string spells `m`, so `MAGICS` is `MAGIC` with `TGT` set to `m`. -/
theorem magicsBuildsThePacketOfTheString : Obligations.MagicsBuildsThePacketOfTheString := by
  intro s m hsegs
  have hmagics := exec_magics_eq_exec_magic (parseAddress_of_segments hsegs)
  have hmagic := exec_magic (s.setTgt m)
  refine ⟨_, hmagics.trans hmagic, setPacket_magicPacket_frame (s.setTgt m) m, ?_, hmagic⟩
  exact (s.setTgt m).packet_setPacket (by simp)

/-- Settles O22: the segments the grammar excludes, and the two errors of parsing. -/
theorem magicsFailuresWriteStatusOnly : Obligations.MagicsFailuresWriteStatusOnly := by
  refine ⟨fun g hg => ?grammar, fun s => ⟨fun hinvalid => ?parse, fun hvalid hlen => ?length⟩⟩
  case grammar =>
    by_contra hvalid
    obtain ⟨hlen, hhex⟩ := hexSeg_ne_none.1 hvalid
    rcases hg with rfl | hlong | ⟨c, hc, hbad⟩
    · simp at hlen
    · omega
    · exact hbad (hhex c hc)
  case parse => exact exec_magics_error (parseAddress_of_invalid_segment hinvalid)
  case length => exact exec_magics_error (parseAddress_of_not_six hvalid hlen)

/-! ### The canonical string of an address -/

theorem upperDigit_ne_colon : ∀ {d : Nat}, d < 16 → upperDigit d ≠ colon := by decide

theorem colon_notMem_hexPair (b : Byte) : colon ∉ hexPair b := by
  have hhi := upperDigit_ne_colon (d := b.toNat / 16) (by have := b.isLt; omega)
  have hlo := upperDigit_ne_colon (d := b.toNat % 16) (by omega)
  simp [hexPair, hhi.symm, hlo.symm]

/-- The two upper-case digits of a byte spell it. -/
theorem hexSeg_hexPair (b : Byte) : hexSeg (hexPair b) = some b := by
  have hhi := hexDigit_upperDigit (d := b.toNat / 16) (by have := b.isLt; omega)
  have hlo := hexDigit_upperDigit (d := b.toNat % 16) (by omega)
  rw [hexPair, hexSeg_two hhi hlo, Nat.div_add_mod, BitVec.ofNat_toNat, BitVec.setWidth_eq]

/-- The canonical string splits into the pairs of digits of the six bytes. -/
theorem splitColons_canonicalString (m : HwAddr) :
    splitColons (canonicalString m) = (hwBytes m).map hexPair := by
  simp only [splitColons, canonicalString, List.append_assoc, List.cons_append, List.nil_append,
    splitFrom_append_colon (colon_notMem_hexPair _),
    splitFrom_of_colon_notMem (colon_notMem_hexPair _)]
  rfl

/-- Settles O24: the segments of the canonical string are the six bytes, so O21 gives the packet. -/
theorem canonicalStringParsesToItsAddress : Obligations.CanonicalStringParsesToItsAddress := by
  intro s m hs
  have hsegs : (splitColons s.input).map hexSeg = (hwBytes m).map some := by
    rw [hs, splitColons_canonicalString, List.map_map]
    exact List.map_congr_left fun b _ => hexSeg_hexPair b
  obtain ⟨t, hexec, hframe, hpacket, -⟩ := magicsBuildsThePacketOfTheString s m hsegs
  exact ⟨t, hexec, congrArg State.tgt hframe, congrArg State.status hframe,
    congrArg State.olen hframe, hpacket⟩

end Sys2Proof.Machine
end

section
/-! PROOFS. The checksum unit of spec/40_checksum.md: the closed form, the 16-bit accumulator and the order of
the words (R115), and the command `CKSUM` (R112, R30). -/

namespace Sys2Proof.Machine

/-! ### The closed form (R115) -/

/-- The word sum is the sum of the words (R110). -/
theorem wordSum_eq_sum : ∀ s : List Byte, wordSum s = (wordsOf s).sum
  | [] | [_] => rfl
  | hi :: lo :: r => by rw [wordSum, wordsOf, List.sum_cons, wordSum_eq_sum r]

/-- R115: only zero words fold to zero. -/
theorem foldNat_eq_zero {s : List Byte} : foldNat s = 0 ↔ wordSum (completeOdd s) = 0 := by
  refine ⟨fun hfold => ?_, foldNat_of_zero⟩
  by_contra hsum
  rw [foldNat_of_pos (Nat.pos_of_ne_zero hsum)] at hfold
  omega

theorem fold_eq_zero {s : List Byte} : fold s = 0 ↔ wordSum (completeOdd s) = 0 := by
  rw [← foldNat_eq_zero, ← fold_toNat]
  exact BitVec.toNat_inj.symm

/-- Settles O32: the closed form, and a sum of words is zero when each word is. -/
theorem foldHasTheClosedForm : Obligations.FoldHasTheClosedForm := by
  refine fun s => ⟨fun hzero => ?_, fun hpos => ?_, ?_⟩
  · rw [fold_toNat, foldNat_of_zero hzero]
  · rw [fold_toNat, foldNat_of_pos hpos]
  · rw [fold_eq_zero, wordSum_eq_sum, List.sum_eq_zero_iff]

/-! ### The 16-bit accumulator (R115) -/

theorem wordsOf_le : ∀ {s : List Byte}, ∀ w ∈ wordsOf s, w ≤ 0xFFFF
  | [] | [_] => by simp [wordsOf]
  | hi :: lo :: r => by
    have hhi := hi.isLt
    have hlo := lo.isLt
    refine List.forall_mem_cons.2 ⟨?_, wordsOf_le⟩
    rw [be16]
    omega

/-- Adding one word to the folded sum `t` folds the sum `t + w`: both are its representative modulo
`0xFFFF`. -/
theorem addWithCarry_foldCarry (t : Nat) {w : Nat} (hw : w ≤ 0xFFFF) :
    addWithCarry (foldCarry t t) w = foldCarry (t + w) (t + w) := by
  rcases Nat.eq_zero_or_pos t with rfl | hpos
  · rw [Nat.zero_add, foldCarry_of_le _ hw, foldCarry, addWithCarry, Nat.zero_add,
      if_neg (Nat.not_lt.2 hw)]
  · rw [foldCarry_eq (Nat.le_refl t) hpos, foldCarry_eq (Nat.le_refl (t + w)) (by omega), addWithCarry]
    split <;> omega

/-- The accumulator, started at the folded sum `t`, ends at the folded sum of `t` and all words. -/
theorem foldl_addWithCarry {ws : List Nat} (hws : ∀ w ∈ ws, w ≤ 0xFFFF) (t : Nat) :
    ws.foldl addWithCarry (foldCarry t t) = foldCarry (t + ws.sum) (t + ws.sum) := by
  induction ws generalizing t with
  | nil => rfl
  | cons w ws ih =>
    obtain ⟨hw, hrest⟩ := List.forall_mem_cons.1 hws
    rw [List.foldl_cons, addWithCarry_foldCarry t hw, ih hrest, List.sum_cons, Nat.add_assoc]

/-- Settles O33: the accumulator starts at 0, the folded sum of no words. -/
theorem foldIsTheSixteenBitAccumulator : Obligations.FoldIsTheSixteenBitAccumulator := by
  intro s
  have hacc := foldl_addWithCarry (wordsOf_le (s := completeOdd s)) 0
  rw [Nat.zero_add, ← wordSum_eq_sum] at hacc
  exact (fold_toNat s).trans hacc.symm

/-! ### The order of the words (R115) -/

/-- Settles O34: a permutation of the words has the same sum. -/
theorem foldIgnoresTheOrderOfWords : Obligations.FoldIgnoresTheOrderOfWords := by
  intro s r hperm
  have hsum : wordSum (completeOdd s) = wordSum (completeOdd r) := by
    rw [wordSum_eq_sum, wordSum_eq_sum, hperm.sum_eq]
  rw [fold, fold, foldNat, foldNat, hsum]

/-! ### The command `CKSUM` (R112, R30) -/

theorem wordSum_of_zeros : ∀ {s : List Byte}, (∀ b ∈ s, b = 0x00) → wordSum s = 0
  | [], _ | [_], _ => rfl
  | hi :: lo :: r, h => by
    obtain ⟨hhi, hlo, hr⟩ := by simpa only [List.forall_mem_cons] using h
    rw [wordSum, hhi, hlo, wordSum_of_zeros hr]
    rfl

/-- Zero bytes fold to zero; the byte that completes an odd length is one (R110). -/
theorem fold_of_zeros {s : List Byte} (h : ∀ b ∈ s, b = 0x00) : fold s = 0 := by
  refine fold_eq_zero.2 (wordSum_of_zeros ?_)
  unfold completeOdd
  split
  · exact List.forall_mem_append.2 ⟨h, by simp⟩
  · exact h

/-- Settles O36: the state `CKSUM` leaves; the empty input and the input of zero bytes fold to zero. -/
theorem cksumWritesTheSumAndItsComplement : Obligations.CksumWritesTheSumAndItsComplement := by
  refine ⟨rfl, fun s => ⟨exec_cksum s, rfl, fun hempty => ?empty, fold_of_zeros, fun hones => ?ones⟩⟩
  case empty =>
    have hinput : s.input = [] := by simp [State.input, hempty]
    have hfold : fold s.input = 0 := fold_of_zeros (by simp [hinput])
    rw [hfold]
    decide
  case ones =>
    rw [hones]
    decide

/-- Settles O37: the two registers are a word and its complement. -/
theorem cksumResultsAddUpToAllOnes : Obligations.CksumResultsAddUpToAllOnes :=
  fun s => ⟨_, exec_cksum s, toNat_not_add_toNat (fold s.input)⟩

end Sys2Proof.Machine
end

section
/-! PROOFS. The two probes: the frames `ARPREQ` and `ICMPREQ` leave (spec/42_arp_probe.md R130, R131;
spec/43_icmp_probe.md R140, R141), the lengths and checksums of the ICMP probe (R144) and its verdict
(R145). -/

namespace Sys2Proof.Machine

/-! ### The frames in `OBUF` -/

/-- A build that completes writes `OBUF`, `OLEN` and `STATUS` only. -/
theorem setPacket_frame (s : State) (f : List Byte) :
    (s.setPacket f).setStatus .ok =
      { s with obuf := Memory.ofBytes 0 f, olen := BitVec.ofNat 16 f.length, status := 1 } := rfl

/-- R130: the 28 bytes of the ARP probe's message. -/
theorem arpEncode_arpProbeMessage (tgt lhw : HwAddr) (lip : IpAddr) :
    arpEncode (arpProbeMessage tgt lhw lip) =
      [0x00, 0x01, 0x08, 0x00, 0x06, 0x04, 0x00, 0x01] ++ hwBytes lhw ++ ipBytes lip ++ hwBytes tgt ++
        [0xFF, 0xFF, 0xFF, 0xFF] := by
  simp only [arpEncode, arpProbeMessage]
  rfl

/-- Settles O27: the probe has 42 bytes, and its fields in order are the bytes written out. -/
theorem arpreqBuildsTheProbeFrame : Obligations.ArpreqBuildsTheProbeFrame := by
  refine ⟨rfl, fun s => ⟨_, exec_arpreq s, ?frame, ?packet⟩⟩
  case frame =>
    rw [setPacket_frame, arpProbe_length]
    rfl
  case packet =>
    rw [packet_setStatus, s.packet_setPacket (by simp), arpProbe, arpEncode_arpProbeMessage]
    rfl

/-- R140, R85: the datagram length of the ICMP probe is 28 and the length of its data. -/
theorem icmpProbe_eq (p : Params) (tgt lhw : HwAddr) (lip : IpAddr) :
    icmpProbe p tgt lhw lip =
      ethEncode tgt lhw etherTypeIpv4
        (ipv4Header p lip ipv4Broadcast (8 + p.icmpData.length) ++ icmpProbeMessage p) := by
  rw [icmpProbe, icmpProbeMessage, icmpEcho_length]

/-- Settles O29: the probe fits `OBUF`, and its fields in order are the bytes written out. -/
theorem icmpreqBuildsTheProbeFrame : Obligations.IcmpreqBuildsTheProbeFrame := by
  have hlen (s : State) : (icmpProbe Config.params s.tgt s.lhw s.lip).length < 65536 :=
    packetLengths_lt (icmpProbe_length_mem ..)
  refine ⟨rfl, fun s => ⟨_, exec_icmpreq s, setPacket_frame _ _, ?olen, ?packet⟩⟩
  case olen =>
    have holen := hlen s
    rw [icmpProbe_length] at holen
    simp [Nat.mod_eq_of_lt holen]
  case packet =>
    have hfield : ipv4HdrLen + (8 + Config.params.icmpData.length) =
        28 + Config.params.icmpData.length := by
      rw [ipv4HdrLen]
      omega
    rw [packet_setStatus, s.packet_setPacket (hlen s), icmpProbe_eq, ipv4Header, ipv4HeaderWith,
      ipv4HeaderWith, hfield]
    rfl

/-! ### Lengths and checksums (R144) -/

/-- R85: the header checksum of a built IPv4 header verifies; it is the field at offset 10. -/
theorem fold_ipv4Header (p : Params) (src dst : IpAddr) (n : Nat) :
    fold (ipv4Header p src dst n) = 0xFFFF :=
  (insertedChecksumVerifies (ipv4HeaderWith p src dst n 0) 10 rfl rfl rfl _ rfl).1

/-- R86: the checksum of a built ICMP message verifies; it is the field at offset 2. -/
theorem fold_icmpEcho (type code : Byte) (ident seq : Word) (data : List Byte) :
    fold (icmpEcho type code ident seq data) = 0xFFFF :=
  (insertedChecksumVerifies (icmpEchoWith type code ident seq data 0) 2 rfl rfl rfl _ rfl).1

/-- R84: the total-length field of the ICMP probe. -/
theorem wordAt_icmpProbe_totalLength (p : Params) (tgt lhw : HwAddr) (lip : IpAddr) :
    wordAt (icmpProbe p tgt lhw lip) 16 = BitVec.ofNat 16 (ipv4HdrLen + (8 + p.icmpData.length)) := by
  rw [icmpProbe_eq]
  exact wordOfBytes_bytes _

/-- Settles O30: the parameters keep the total length within 16 bits, and the header and the message are the
parts of the frame at 14 and at 34. -/
theorem icmpProbeLengthsAndChecksumsVerify : Obligations.IcmpProbeLengthsAndChecksumsVerify := by
  rintro p tgt lhw lip hp f rfl
  obtain ⟨-, hmax, hsize⟩ := hp
  have htotal : be16 (byteAt (icmpProbe p tgt lhw lip) 16) (byteAt (icmpProbe p tgt lhw lip) 17) =
      28 + p.icmpData.length := by
    rw [← wordAt_toNat, wordAt_icmpProbe_totalLength, BitVec.toNat_ofNat, ipv4HdrLen]
    omega
  refine ⟨icmpProbe_length .., htotal, ?_, ?header, ?message⟩
  · rw [htotal, icmpProbe_length]
    omega
  case header =>
    rw [icmpProbe_eq]
    exact fold_ipv4Header ..
  case message =>
    rw [icmpProbe_eq]
    exact fold_icmpEcho ..

/-! ### The verdict (R145) -/

/-- R151: an Ethernet frame of type IPv4 classifies as the ICMP type its payload parses to. -/
theorem classifyFrame_ethEncode_ipv4 (d s : HwAddr) {p : List Byte} {t : Byte}
    (h : ipv4IcmpType p = some t) : classifyFrame (ethEncode d s etherTypeIpv4 p) = .icmp t s := by
  have hlen : ethHdrLen ≤ (ethEncode d s etherTypeIpv4 p).length := by
    rw [ethEncode_length, ethHdrLen]
    omega
  rw [classifyFrame_of_ipv4Type hlen (wordAt_ethEncode_type ..), drop_ethEncode_header, h]
  rfl

/-- R155: a built datagram without options parses to the first byte of the ICMP message behind it. -/
theorem ipv4IcmpType_ipv4Header_append (p : Params) (src dst : IpAddr) (n : Nat) {z : List Byte}
    (hz : 8 ≤ z.length) : ipv4IcmpType (ipv4Header p src dst n ++ z) = some (byteAt z 0) := by
  have hlen : (ipv4Header p src dst n ++ z).length = 20 + z.length := by
    rw [List.length_append, ipv4Header_length]
  have hfirst : byteAt (ipv4Header p src dst n ++ z) 0 = 0x45 := rfl
  have hwords : ipHeaderWords (ipv4Header p src dst n ++ z) = 5 := by
    rw [ipHeaderWords, hfirst]
    rfl
  have hversion : ipVersion (ipv4Header p src dst n ++ z) = 4 := by
    rw [ipVersion, hfirst]
    rfl
  rw [ipv4IcmpType_eq_some, hwords, hlen]
  exact ⟨by omega, hversion, by omega, rfl, by omega, rfl⟩

/-- Settles O31: the probe is an Ethernet frame of type IPv4 around a datagram whose message has type 8. -/
theorem icmpProbeClassifiesAsEchoRequest : Obligations.IcmpProbeClassifiesAsEchoRequest := by
  intro p tgt lhw lip
  rw [icmpProbe_eq]
  exact classifyFrame_ethEncode_ipv4 tgt lhw
    (ipv4IcmpType_ipv4Header_append p lip ipv4Broadcast _ (by simp [icmpProbeMessage]))

end Sys2Proof.Machine
end

section
/-! PROOFS. The parse direction of spec/44_classify.md: exactly which ARP and IPv4 frames match (R153, R155),
and how many bytes of a frame decide its verdict (R158, R159). -/

namespace Sys2Proof.Machine

/-! ### Which frames match -/

/-- Settles O39: under type ARP the two checks of the ARP parser decide. -/
theorem arpFrameMatchesExactlyWhenWellFormed : Obligations.ArpFrameMatchesExactlyWhenWellFormed := by
  rintro b p hlen htype rfl
  have hclass := classifyFrame_of_arpType hlen (wordAt_eq_iff.2 htype)
  refine ⟨fun ⟨hroom, haddr⟩ => ?_, fun hbad => ?_⟩
  · rw [hclass, ethHdrLen, arpDecode_eq_some.2 ⟨hroom, haddr, rfl⟩]
    rfl
  · have hnone : arpDecode (b.drop ethHdrLen) = none := by
      refine Option.eq_none_iff_forall_ne_some.2 fun m hm => hbad ?_
      obtain ⟨hroom, haddr, -⟩ := arpDecode_eq_some.1 hm
      exact ⟨hroom, haddr⟩
    rw [hclass, hnone]
    rfl

/-- Settles O40: under type IPv4 the five checks of the IPv4 and ICMP parser decide. -/
theorem icmpFrameMatchesExactlyWhenWellFormed :
    Obligations.IcmpFrameMatchesExactlyWhenWellFormed := by
  rintro b p ihl hlen htype rfl rfl
  have hclass := classifyFrame_of_ipv4Type hlen (wordAt_eq_iff.2 htype)
  refine ⟨fun ⟨hheader, hversion, hwords, hproto, hroom⟩ => ?_, fun hbad => ?_⟩
  · rw [hclass, ethHdrLen,
      ipv4IcmpType_eq_some.2 ⟨hheader, hversion, hwords, hproto, hroom, rfl⟩]
    rfl
  · have hnone : ipv4IcmpType (b.drop ethHdrLen) = none := by
      refine Option.eq_none_iff_forall_ne_some.2 fun t ht => hbad ?_
      obtain ⟨hheader, hversion, hwords, hproto, hroom, -⟩ := ipv4IcmpType_eq_some.1 ht
      exact ⟨hheader, hversion, hwords, hproto, hroom⟩
    rw [hclass, hnone]
    rfl

/-! ### The first 82 bytes decide -/

/-- A byte before the cut is as before. -/
theorem byteAt_take {b : List Byte} {n i : Nat} (h : i < n) : byteAt (b.take n) i = byteAt b i := by
  simp [byteAt, List.getElem?_take_of_lt h]

/-- R153: the first 28 bytes of a payload decide what it parses to as ARP. -/
theorem arpDecode_take (p : List Byte) {n : Nat} (h : 28 ≤ n) :
    arpDecode (p.take n) = arpDecode p := by
  have hbyte {i : Nat} (hi : i < 28) : byteAt (p.take n) i = byteAt p i :=
    byteAt_take (Nat.lt_of_lt_of_le hi h)
  have hlen : 28 ≤ (p.take n).length ↔ 28 ≤ p.length := by
    rw [List.length_take]
    omega
  have hfields : arpFieldsAt (p.take n) = arpFieldsAt p := by
    simp [arpFieldsAt, wordAt, hwAt, ipAt, hbyte]
  refine Option.ext fun m => ?_
  rw [arpDecode_eq_some, arpDecode_eq_some, hlen, hbyte (by omega), hbyte (by omega), hfields]

/-- R155, R158: the first 68 bytes of a payload decide its ICMP type: a header has at most 15 words, and
8 bytes follow it. -/
theorem ipv4IcmpType_take (p : List Byte) {n : Nat} (h : 68 ≤ n) :
    ipv4IcmpType (p.take n) = ipv4IcmpType p := by
  have hbyte {i : Nat} (hi : i < 68) : byteAt (p.take n) i = byteAt p i :=
    byteAt_take (Nat.lt_of_lt_of_le hi h)
  have hfirst : byteAt (p.take n) 0 = byteAt p 0 := hbyte (by omega)
  have hwords : ipHeaderWords (p.take n) = ipHeaderWords p := by rw [ipHeaderWords, hfirst, ipHeaderWords]
  have hversion : ipVersion (p.take n) = ipVersion p := by rw [ipVersion, hfirst, ipVersion]
  have hmax : ipHeaderWords p < 16 := Nat.mod_lt _ (by omega)
  have hlen {k : Nat} (hk : k ≤ 68) : k ≤ (p.take n).length ↔ k ≤ p.length := by
    rw [List.length_take]
    omega
  refine Option.ext fun t => ?_
  rw [ipv4IcmpType_eq_some, ipv4IcmpType_eq_some, hwords, hversion, hlen (by omega), hbyte (by omega),
    hlen (by omega), hbyte (by omega)]

/-- Settles O43: the cut keeps the header, the EtherType and what the payload parses to. -/
theorem classifyNeedsOnly82Bytes : Obligations.ClassifyNeedsOnly82Bytes := by
  intro b n hn
  rcases Nat.lt_or_ge b.length ethHdrLen with hshort | hlen
  · rw [List.take_of_length_le (by rw [ethHdrLen] at hshort; omega)]
  have hcut : ethHdrLen ≤ (b.take n).length := by
    rw [List.length_take]
    exact le_min (le_trans (by decide) hn) hlen
  have hbyte {i : Nat} (hi : i < 14) : byteAt (b.take n) i = byteAt b i := byteAt_take (by omega)
  have htype : wordAt (b.take n) 12 = wordAt b 12 := by simp [wordAt, hbyte]
  have hsource : hwAt (b.take n) 6 = hwAt b 6 := by simp [hwAt, hbyte]
  have hpayload : (b.take n).drop ethHdrLen = (b.drop ethHdrLen).take (n - 14) := List.drop_take
  by_cases harp : wordAt b 12 = etherTypeArp
  · rw [classifyFrame_of_arpType hlen harp, classifyFrame_of_arpType hcut (htype.trans harp), hpayload,
      arpDecode_take _ (by omega)]
  by_cases hipv4 : wordAt b 12 = etherTypeIpv4
  · rw [classifyFrame_of_ipv4Type hlen hipv4, classifyFrame_of_ipv4Type hcut (htype.trans hipv4),
      hpayload, ipv4IcmpType_take _ (by omega), hsource]
  · rw [classifyFrame_of_otherType hlen harp hipv4,
      classifyFrame_of_otherType hcut (by rwa [htype]) (by rwa [htype])]

end Sys2Proof.Machine
end

section
/-! PROOFS. Reading the buffers after an update: which updates a byte of `IBUF` and the packet
do not depend on (spec/10_state.md R28, R29). Each is true by rfl, as the lemmas about the fields
are. -/

namespace Sys2Proof.Machine.State

section
variable (s : State) (a : Nat)
@[simp] theorem inByte_setTgt (v : HwAddr) : (s.setTgt v).inByte a = s.inByte a := rfl
@[simp] theorem inByte_setLhw (v : HwAddr) : (s.setLhw v).inByte a = s.inByte a := rfl
@[simp] theorem inByte_setLip (v : IpAddr) : (s.setLip v).inByte a = s.inByte a := rfl
@[simp] theorem inByte_setIlen (n : Word) : (s.setIlen n).inByte a = s.inByte a := rfl
@[simp] theorem inByte_setPending (ts : List Transaction) :
    (s.setPending ts).inByte a = s.inByte a := rfl
@[simp] theorem inByte_observe (r : Reading) : (s.observe r).inByte a = s.inByte a := rfl
@[simp] theorem inByte_countDraw : s.countDraw.inByte a = s.inByte a := rfl
@[simp] theorem packet_setTgt (v : HwAddr) : (s.setTgt v).packet = s.packet := rfl
@[simp] theorem packet_setLhw (v : HwAddr) : (s.setLhw v).packet = s.packet := rfl
@[simp] theorem packet_setLip (v : IpAddr) : (s.setLip v).packet = s.packet := rfl
@[simp] theorem packet_setIlen (n : Word) : (s.setIlen n).packet = s.packet := rfl
@[simp] theorem packet_setIbuf (m : Memory) : (s.setIbuf m).packet = s.packet := rfl
@[simp] theorem packet_setSums (f : Word) : (s.setSums f).packet = s.packet := rfl
@[simp] theorem packet_setArp (m : ArpMessage) : (s.setArp m).packet = s.packet := rfl
@[simp] theorem packet_setIcmp (t : Byte) (src : HwAddr) : (s.setIcmp t src).packet = s.packet := rfl
@[simp] theorem packet_setMatch (k : MatchKind) : (s.setMatch k).packet = s.packet := rfl
@[simp] theorem packet_setPending (ts : List Transaction) : (s.setPending ts).packet = s.packet :=
  rfl
@[simp] theorem packet_observe (r : Reading) : (s.observe r).packet = s.packet := rfl
@[simp] theorem packet_countDraw : s.countDraw.packet = s.packet := rfl
end

/-- R51: after a write to `IBUF` the offset written reads as the byte, every other as before. -/
theorem inByte_write (s : State) (a c : Nat) (b : Byte) :
    (s.setIbuf (s.ibuf.write a b)).inByte c = if c = a then b else s.inByte c := by
  simp only [inByte, setIbuf_ibuf, setIbuf_resets, Memory.read_write]
  split <;> rfl

end Sys2Proof.Machine.State
end

section
/-! PROOFS. The command encoding (spec/30_encoding.md R72 to R74), the byte order (R14, R55), and a write of a
byte to `CMD`: the command it runs (R25) or the error of an illegal code. -/

namespace Sys2Proof.Machine

/-! ### Decoding and encoding -/

/-- R72, R73: the byte of a command decodes to it. -/
theorem decode_encode (i : Instr) : decode (encode i) = .ok i := by cases i <;> rfl

/-- R72, R73: a byte that decodes to a command is that command's byte. -/
theorem encode_of_decode {c : Byte} {i : Instr} (h : decode c = .ok i) : encode i = c := by
  rcases decode_cases c with ⟨-, herror⟩ | ⟨j, hc, hok⟩
  · cases herror.symm.trans h
  · cases hok.symm.trans h
    exact hc.symm

/-- Settles O1: both directions. -/
theorem decodeRecoversEveryCommand : Obligations.DecodeRecoversEveryCommand :=
  ⟨fun i _ => decode_encode i, fun _ _ h => ⟨rfl, encode_of_decode h⟩⟩

/-- R72: the six bytes. -/
theorem encode_mem (i : Instr) : encode i ∈ ([0x01, 0x02, 0x03, 0x04, 0x05, 0x06] : List Byte) := by
  cases i <;> decide

/-- Settles O2: the six rows, and a byte that is no command's is illegal. -/
theorem decoderIsTotalOverTheOpcodeMap : Obligations.DecoderIsTotalOverTheOpcodeMap := by
  refine ⟨⟨rfl, rfl, rfl, rfl, rfl, rfl⟩, fun c hc => ?_⟩
  rcases decode_cases c with ⟨-, hillegal⟩ | ⟨i, rfl, -⟩
  · exact hillegal
  · exact absurd (encode_mem i) hc

/-- Settles O3: the two bytes of a word make its number, and two bytes are those of their number. -/
theorem bigEndianFieldsRoundTrip : Obligations.BigEndianFieldsRoundTrip :=
  ⟨fun v => ⟨_, _, rfl, be16_bytes v⟩, bytesOfWord_wordOfBytes⟩

/-! ### A write of a byte to `CMD` -/

theorem runCommand_of_ok {c : Byte} {i : Instr} (h : decode c = .ok i) (s : State) :
    runCommand c s = exec i s := by
  rw [runCommand, h]

theorem runCommand_of_error {c : Byte} {e : DecodeRefusal} (h : decode c = .error e) (s : State) :
    runCommand c s = .next (s.setStatus .illegalCmd) := by
  rw [runCommand, h]
  rfl

/-- Settles O4: a step that writes a byte to `CMD` runs what the byte decodes to. -/
theorem stepRunsTheDecodedCommand : Obligations.StepRunsTheDecodedCommand := by
  refine fun s c rest hp => ⟨fun i hi _ => ?_, fun e he => ?_⟩
  · exact (step_cmd hp).trans (runCommand_of_ok hi _)
  · exact (step_cmd hp).trans (runCommand_of_error he _)

/-- R76: the transaction that issues a command writes its byte to `CMD`. -/
theorem issueWord_encode (i : Instr) :
    issueWord 8 (encode i).toNat = .writeReg 0 (.byte (encode i)) := by
  cases i <;> decide

/-- Settles O5: the write placed is the next transaction, and taking it leaves `s`. -/
theorem placedCommandRunsNext : Obligations.PlacedCommandRunsNext := by
  intro s i
  have hplaced : (s.withFetchWord 8 (encode i).toNat).pending =
      .writeReg 0 (.byte (encode i)) :: s.pending := by
    rw [State.withFetchWord, issueWord_encode, State.setPending_pending]
  exact (step_cmd hplaced).trans (runCommand_of_ok (decode_encode i) s)

theorem encode_bounds (i : Instr) : encode i ≠ 0 ∧ (encode i).toNat < 7 := by cases i <;> decide

/-- Settles O6: a byte out of the range of the opcodes is no command's. -/
theorem illegalCommandOnlySetsStatus : Obligations.IllegalCommandOnlySetsStatus := by
  intro s c hc
  rcases runCommand_cases c s with ⟨-, hillegal⟩ | ⟨i, rfl, -⟩
  · exact hillegal
  · obtain ⟨hzero, hlt⟩ := encode_bounds i
    rcases hc with heq | hge
    · exact absurd heq hzero
    · omega

/-! ### Every command completes -/

/-- Settles O44: each command gives a next state; `MAGICS` in each of its three ends. -/
theorem everyCommandCompletes : Obligations.EveryCommandCompletes := by
  intro i s
  cases i with
  | magics => rcases exec_magics_cases s with ⟨m, -, h⟩ | h | h <;> exact ⟨_, h⟩
  | magic => exact ⟨_, exec_magic s⟩
  | arpreq => exact ⟨_, exec_arpreq s⟩
  | icmpreq => exact ⟨_, exec_icmpreq s⟩
  | cksum => exact ⟨_, exec_cksum s⟩
  | classify => exact ⟨_, exec_classify s⟩

/-- A write of any byte to `CMD` gives a next state. -/
theorem runCommand_completes (c : Byte) (s : State) : ∃ t, runCommand c s = .next t := by
  rcases runCommand_cases c s with ⟨-, hillegal⟩ | ⟨i, -, hcommand⟩
  · exact ⟨_, hillegal⟩
  · rw [hcommand]
    exact everyCommandCompletes i s

/-! ### What no command writes -/

/-- What no command writes: `LHW`, `LIP`, `ILEN`, `IBUF` and the host's side (R52). -/
structure SameHostSide (s t : State) : Prop where
  lhw : t.lhw = s.lhw
  lip : t.lip = s.lip
  ilen : t.ilen = s.ilen
  ibuf : t.ibuf = s.ibuf
  pending : t.pending = s.pending
  observed : t.observed = s.observed
  resets : t.resets = s.resets

theorem SameHostSide.inByte {s t : State} (h : SameHostSide s t) (a : Nat) :
    t.inByte a = s.inByte a := by
  rw [State.inByte, h.ibuf, h.resets, State.inByte]

/-- R52: every command keeps it. -/
theorem exec_sameHostSide {i : Instr} {s t : State} (h : exec i s = .next t) : SameHostSide s t := by
  rcases exec_cases h with ⟨-, rfl⟩ | ⟨m, -, rfl⟩ | ⟨c, -, -, rfl⟩ | ⟨-, rfl⟩ | ⟨-, rfl⟩ |
    ⟨-, rfl⟩ | ⟨_ | m | ⟨ty, src⟩, -, -, rfl⟩ <;> constructor <;> rfl

/-- R52, R170: so does an illegal code. -/
theorem runCommand_sameHostSide {c : Byte} {s t : State} (h : runCommand c s = .next t) :
    SameHostSide s t := by
  rcases runCommand_cases c s with ⟨-, hillegal⟩ | ⟨i, -, hcommand⟩
  · cases hillegal.symm.trans h
    constructor <;> rfl
  · exact exec_sameHostSide (hcommand.symm.trans h)

end Sys2Proof.Machine
end

section
/-! PROOFS. The transactions of the host, one step each: registers (spec/10_state.md R26, R35), buffers
(spec/20_memory.md R51), accesses without a meaning (spec/93_implementation_defined.md U4) and the platform's
reset (spec/70_reset_and_hazards.md R190). -/

namespace Sys2Proof.Machine

/-! ### Registers -/

/-- R20: the list of register reads is what a read of each register, by its number, returns. -/
theorem registerReads_eq (s : State) :
    registerReads s = allRegs.map fun r => (regNumber r, readRegister s r) := rfl

/-- R35: a read of a register, by its number. -/
theorem perform_readReg (s : State) (r : Reg) :
    perform (.readReg (regNumber r)) s =
      .next (s.observe (.reg (regNumber r) (readRegister s r))) := by
  simp only [perform, regOfNumber_regNumber]

/-- Settles O7: the number is that of a register, whose read records its value. -/
theorem registerReadReturnsTheValueOnly : Obligations.RegisterReadReturnsTheValueOnly := by
  intro s n v rest hmem hp
  rw [registerReads_eq] at hmem
  obtain ⟨r, -, hr⟩ := List.mem_map.1 hmem
  cases hr
  rw [step_cons hp, perform_readReg]
  cases r <;> rfl

/-- Settles O8: each of the three registers takes its value. -/
theorem operandWriteReplacesTheRegister : Obligations.OperandWriteReplacesTheRegister :=
  fun _ _ => ⟨fun _ hp => step_cons hp, fun _ hp => step_cons hp, fun _ hp => step_cons hp⟩

/-- Settles O9: the step is the checked write, the check is its guard, and a command keeps `ILEN`. -/
theorem ilenTakesOnlyLengthsThatFit : Obligations.IlenTakesOnlyLengthsThatFit :=
  ⟨fun _ _ _ hp => step_cons hp,
    fun _ _ _ => ⟨fun hfits => if_pos hfits, fun hlarge => if_neg (Nat.not_le.2 hlarge)⟩,
    fun _ _ _ h => (exec_sameHostSide h).ilen⟩

/-- R35: a write of a read-only register is ignored. -/
theorem writeRegister_readOnly {r : Reg} (h : regAccess r = .readOnly) (v : RegValue) (s : State) :
    writeRegister r v s = .next s := by
  cases r <;> cases h <;> rfl

/-- R20: registers 1 and 6 to 20 are read-only. -/
theorem regOfNumber_readOnly {n : Nat} (h : n = 1 ∨ (6 ≤ n ∧ n ≤ 20)) :
    ∃ r, regOfNumber n = some r ∧ regAccess r = .readOnly := by
  rcases h with rfl | ⟨hlo, hhi⟩
  · exact ⟨.status, rfl, rfl⟩
  · interval_cases n <;> exact ⟨_, rfl, rfl⟩

/-- Settles O10: the register is read-only. -/
theorem readOnlyWriteIsIgnored : Obligations.ReadOnlyWriteIsIgnored := by
  intro s n v rest hn hp
  obtain ⟨r, hr, hro⟩ := regOfNumber_readOnly hn
  rw [step_cons hp]
  simp only [perform, hr]
  exact writeRegister_readOnly hro v _

/-! ### Buffers -/

theorem perform_writeIn {a : Nat} (ha : a < Config.params.ibufSize) (b : Byte) (s : State) :
    perform (.writeIn a b) s = .next (s.setIbuf (s.ibuf.write a b)) := if_pos ha

theorem perform_readOut {a : Nat} (ha : a < Config.params.obufSize) (s : State) :
    perform (.readOut a) s = .next (readOutByte a s) := if_pos ha

/-- R51: a read of a specified byte of `OBUF`. -/
theorem readOutByte_of_some {a : Nat} {b : Byte} {s : State} (h : s.outByte a = some b) :
    readOutByte a s = s.observe (.outByte a b) := by
  rw [readOutByte, h]

/-- U1: a read of an unspecified byte of `OBUF`. -/
theorem readOutByte_of_none {a : Nat} {s : State} (h : s.outByte a = none) :
    readOutByte a s = (s.observe (.outByte a (Config.obufUnspecified s.draws))).countDraw := by
  rw [readOutByte, h]

/-- Settles O11: the step writes the byte, and the reads after a write say the rest. -/
theorem hostWriteInSetsOneByte : Obligations.HostWriteInSetsOneByte := by
  intro s a b rest hp ha
  refine ⟨_, (step_cons hp).trans (perform_writeIn ha b _), rfl, ?_, fun c hc => ?_⟩
  · exact (State.inByte_write ..).trans (if_pos rfl)
  · exact (State.inByte_write ..).trans (if_neg hc)

/-- Settles O12: the byte read is recorded; an unspecified one is a free value, which is counted. -/
theorem bufferReadReturnsTheByteOnly : Obligations.BufferReadReturnsTheByteOnly := by
  refine fun s a rest => ⟨fun hp ha => ?input, fun hp ha => ⟨fun b hb => ?specified, fun hnone => ?free⟩⟩
  case input => exact (step_cons hp).trans (if_pos ha)
  case specified =>
    have hbyte : (s.setPending rest).outByte a = some b := hb
    rw [step_cons hp, perform_readOut ha, readOutByte_of_some hbyte]
    rfl
  case free =>
    have hbyte : (s.setPending rest).outByte a = none := hnone
    rw [step_cons hp, perform_readOut ha, readOutByte_of_none hbyte]
    rfl

/-- Settles O13: the write is inside `OBUF` and ignored. -/
theorem hostWriteOutIsIgnored : Obligations.HostWriteOutIsIgnored :=
  fun _ _ _ _ hp ha => (step_cons hp).trans (if_pos ha)

/-! ### Accesses without a meaning -/

/-- R20: there is no register above number 20. -/
theorem regOfNumber_eq_none {n : Nat} (h : 20 < n) : regOfNumber n = none :=
  List.getElem?_eq_none h

/-- Settles O14: there is no such register, or the offset fails the bound of its buffer. -/
theorem accessOutsideASpaceIsRefused : Obligations.AccessOutsideASpaceIsRefused := by
  refine fun s n rest => ⟨fun v hp hn => ?write, fun hp hn => ?read,
    fun _ hp hn => (step_cons hp).trans (if_neg (Nat.not_lt.2 hn)),
    fun hp hn => (step_cons hp).trans (if_neg (Nat.not_lt.2 hn)),
    fun _ hp hn => (step_cons hp).trans (if_neg (Nat.not_lt.2 hn)),
    fun hp hn => (step_cons hp).trans (if_neg (Nat.not_lt.2 hn))⟩
  all_goals
    rw [step_cons hp]
    simp only [perform, regOfNumber_eq_none hn]

/-- Settles O15: with nothing pending a step changes nothing. -/
theorem stepWithoutTransactionIsIdle : Obligations.StepWithoutTransactionIsIdle :=
  fun _ => step_nil

/-- R35: a write of a value of the register's width has a meaning. -/
theorem writeRegister_of_width {r : Reg} {v : RegValue} (h : valueWidth v = regWidth r) (s : State) :
    ∃ t, writeRegister r v s = .next t := by
  cases r with
  | cmd => cases v with
    | byte c => exact runCommand_completes c s
    | _ => cases h
  | tgt | lhw => cases v with
    | six a => exact ⟨_, rfl⟩
    | _ => cases h
  | lip => cases v with
    | four a => exact ⟨_, rfl⟩
    | _ => cases h
  | ilen => cases v with
    | word n => exact ⟨_, rfl⟩
    | _ => cases h
  | _ => exact ⟨s, writeRegister_readOnly rfl v s⟩

/-- R35: a write to a writable register of a value of another width has none. -/
theorem writeRegister_of_otherWidth {r : Reg} {v : RegValue} (hwritable : regAccess r ≠ .readOnly)
    (h : valueWidth v ≠ regWidth r) (s : State) :
    writeRegister r v s = .refused (.valueOfOtherWidth r v) := by
  cases r with
  | cmd => cases v with
    | byte c => exact absurd rfl h
    | _ => rfl
  | tgt | lhw => cases v with
    | six a => exact absurd rfl h
    | _ => rfl
  | lip => cases v with
    | four a => exact absurd rfl h
    | _ => rfl
  | ilen => cases v with
    | word n => exact absurd rfl h
    | _ => rfl
  | _ => exact absurd rfl hwritable

/-- What a bound decides: inside it a transaction gives a next state, outside it a refusal. -/
theorem ite_outcome {p : Prop} [Decidable p] (t : State) (r : Refusal) :
    let o : Host.Outcome State Fault Refusal := if p then .next t else .refused r
    (decide p = true → ∃ t', o = .next t') ∧ (decide p ≠ true → ∃ r', o = .refused r') :=
  ⟨fun h => ⟨t, if_pos (of_decide_eq_true h)⟩, fun h => ⟨r, if_neg (mt decide_eq_true h)⟩⟩

/-- A transaction gives a next state exactly where it has a meaning, and is refused elsewhere. -/
theorem perform_outcome (x : Transaction) (s : State) :
    (x.wf Config.params = true → ∃ t, perform x s = .next t) ∧
      (x.wf Config.params ≠ true → ∃ r, perform x s = .refused r) := by
  cases x with
  | writeReg n v =>
    cases hr : regOfNumber n with
    | none => simp [Transaction.wf, perform, hr]
    | some r =>
      simp only [Transaction.wf, perform, hr, Bool.or_eq_true, beq_iff_eq, ne_eq, not_or]
      refine ⟨fun h => ?_, fun ⟨hwritable, h⟩ => ⟨_, writeRegister_of_otherWidth hwritable h s⟩⟩
      rcases h with hro | hwidth
      · exact ⟨s, writeRegister_readOnly hro v s⟩
      · exact writeRegister_of_width hwidth s
  | readReg n => cases hr : regOfNumber n <;> simp [Transaction.wf, perform, hr]
  | writeIn a b => exact ite_outcome ..
  | readIn a => exact ite_outcome ..
  | writeOut a b => exact ite_outcome ..
  | readOut a => exact ite_outcome ..
  | reset => exact ⟨fun _ => ⟨_, rfl⟩, fun h => absurd rfl h⟩

/-- Settles O50: with nothing pending a step gives a next state; else the transaction decides. -/
theorem stepStopsOnlyAtMeaninglessAccess : Obligations.StepStopsOnlyAtMeaninglessAccess := by
  intro s
  cases hp : s.pending with
  | nil =>
    refine ⟨fun _ => ⟨s, step_nil hp⟩, fun h => absurd (fun x rest hx => ?_) h⟩
    rw [hp] at hx
    cases hx
  | cons x rest =>
    have hmeaning : s.nextIsMeaningful ↔ x.wf Config.params = true := by
      simp [State.nextIsMeaningful, hp]
    rw [hmeaning, step_cons hp]
    exact perform_outcome x _

/-! ### Reset -/

/-- Settles O16: the registers of the reset state are zero, and the platform's reset leaves those values and
no byte in either buffer. -/
theorem resetZeroesRegistersAndForgetsBuffers :
    Obligations.ResetZeroesRegistersAndForgetsBuffers := by
  have hzero : ∀ p ∈ registerReads State.reset, p.2 = .byte 0 ∨ p.2 = .word 0 ∨
      p.2 = .six ⟨0, 0, 0, 0, 0, 0⟩ ∨ p.2 = .four ⟨0, 0, 0, 0⟩ := by decide
  refine ⟨⟨fun n v => hzero (n, v), fun a => ⟨rfl, if_neg (Nat.not_lt_zero a)⟩⟩, fun s => ?_⟩
  exact ⟨_, rfl, rfl, rfl, rfl, fun a => ⟨rfl, if_neg (Nat.not_lt_zero a)⟩⟩

/-! ### One transaction per step -/

/-- A transaction changes nothing of what is pending, and of what was read it adds at most one reading. -/
theorem perform_host_side {x : Transaction} {s t : State} (h : perform x s = .next t) :
    t.pending = s.pending ∧ (t.observed = s.observed ∨ ∃ r, t.observed = s.observed ++ [r]) := by
  rcases perform_cases h with ⟨c, -, hc⟩ | ⟨a, -, rfl⟩ | ⟨a, -, rfl⟩ | ⟨a, -, rfl⟩ |
    ⟨n, -, -, rfl⟩ | ⟨a, b, -, -, rfl⟩ | rfl | ⟨r, rfl⟩ | ⟨r, rfl⟩ | ⟨-, rfl⟩
  · have hsame := runCommand_sameHostSide hc
    exact ⟨hsame.pending, .inl hsame.observed⟩
  · exact ⟨rfl, .inl rfl⟩
  · exact ⟨rfl, .inl rfl⟩
  · exact ⟨rfl, .inl rfl⟩
  · exact ⟨rfl, .inl rfl⟩
  · exact ⟨rfl, .inl rfl⟩
  · exact ⟨rfl, .inl rfl⟩
  · exact ⟨rfl, .inr ⟨r, rfl⟩⟩
  · exact ⟨rfl, .inr ⟨r, rfl⟩⟩
  · exact ⟨rfl, .inl rfl⟩

/-- Settles O49: the transaction is taken before it is performed. -/
theorem stepTakesOneTransaction : Obligations.StepTakesOneTransaction := by
  intro s t x rest hp h
  rw [step_cons hp] at h
  obtain ⟨hpending, hobserved | ⟨r, hobserved⟩⟩ := perform_host_side h
  · exact ⟨hpending, [], by rw [hobserved, List.append_nil]; rfl, Nat.zero_le 1⟩
  · exact ⟨hpending, [r], hobserved, Nat.le_refl 1⟩

end Sys2Proof.Machine
end

section
/-! PROOFS. What the commands write and read: the rows of the access table (spec/20_memory.md R52), that an
error changes `STATUS` only (spec/60_exceptions.md R170), and the writers of each piece of state
(spec/10_state.md R20, R28, R29). -/

namespace Sys2Proof.Machine

/-! ### What a command writes (R52) -/

/-- R171: no error is reported as `OK`. -/
theorem errorCode_ne_ok (e : CmdError) : statusBits (errorCode e) ≠ 1 := by cases e <;> decide

/-- Settles O45: each command's end, as named updates, is its frame. -/
theorem commandWritesOnlyItsRow : Obligations.CommandWritesOnlyItsRow := by
  refine fun s t => ⟨?build, ?magics, ?cksum, ?classify⟩
  case build =>
    rintro (h | h | h)
    · cases (exec_magic s).symm.trans h
      exact ⟨rfl, fun _ => rfl⟩
    · cases (exec_arpreq s).symm.trans h
      exact ⟨rfl, fun _ => rfl⟩
    · cases (exec_icmpreq s).symm.trans h
      exact ⟨rfl, fun _ => rfl⟩
  case magics =>
    intro h
    rcases exec_magics_cases s with ⟨m, -, hok⟩ | hparse | hlength
    · cases hok.symm.trans h
      exact ⟨fun _ => rfl, fun hbad => absurd rfl hbad, fun _ => rfl⟩
    · cases hparse.symm.trans h
      exact ⟨fun hok => absurd hok (errorCode_ne_ok .parseFailure), fun _ => ⟨rfl, fun _ => rfl⟩,
        fun _ => rfl⟩
    · cases hlength.symm.trans h
      exact ⟨fun hok => absurd hok (errorCode_ne_ok .invalidAddressLength),
        fun _ => ⟨rfl, fun _ => rfl⟩, fun _ => rfl⟩
  case cksum =>
    intro h
    cases (exec_cksum s).symm.trans h
    exact ⟨rfl, fun _ => ⟨rfl, rfl⟩⟩
  case classify =>
    intro h
    cases (exec_classify s).symm.trans h
    cases classifyFrame s.input with
    | none => exact ⟨rfl, fun _ => rfl, fun _ => ⟨rfl, rfl⟩, fun _ => ⟨rfl, rfl⟩⟩
    | arp m => exact ⟨rfl, fun hkind => absurd rfl hkind, fun _ => ⟨rfl, rfl⟩, fun _ => ⟨rfl, rfl⟩⟩
    | icmp ty src => exact ⟨rfl, fun _ => rfl, fun hkind => absurd rfl hkind, fun _ => ⟨rfl, rfl⟩⟩

/-! ### What a command reads (R52, R15) -/

/-- The packet, `OLEN` and `STATUS` that a build leaves depend on its frame only. -/
theorem setPacket_reads_frame_only (s r : State) (f : List Byte) :
    ((s.setPacket f).setStatus .ok).packet = ((r.setPacket f).setStatus .ok).packet ∧
      ((s.setPacket f).setStatus .ok).olen = ((r.setPacket f).setStatus .ok).olen ∧
      ((s.setPacket f).setStatus .ok).status = ((r.setPacket f).setStatus .ok).status :=
  ⟨rfl, rfl, rfl⟩

/-- R124: what `MAGICS` leaves depends on the input string only. -/
theorem magics_reads_input_only {s r s' r' : State} (hinput : s.input = r.input)
    (hs : exec .magics s = .next s') (hr : exec .magics r = .next r') :
    s'.status = r'.status ∧
      (s'.status = 1 → s'.tgt = r'.tgt ∧ s'.packet = r'.packet ∧ s'.olen = r'.olen) := by
  cases hparse : parseAddress s.input with
  | ok m =>
    cases (exec_magics_ok hparse).symm.trans hs
    cases (exec_magics_ok (hinput ▸ hparse)).symm.trans hr
    exact ⟨rfl, fun _ => ⟨rfl, rfl, rfl⟩⟩
  | error e =>
    cases (exec_magics_error hparse).symm.trans hs
    cases (exec_magics_error (hinput ▸ hparse)).symm.trans hr
    exact ⟨rfl, fun hok => absurd hok (errorCode_ne_ok e)⟩

/-- R150: what `CLASSIFY` leaves depends on the input frame only. -/
theorem classify_reads_input_only {s r s' r' : State} (hinput : s.input = r.input)
    (hs : exec .classify s = .next s') (hr : exec .classify r = .next r') :
    s'.matchReg = r'.matchReg ∧ s'.status = r'.status ∧
      (s'.matchReg = 1 → arpRegisters s' = arpRegisters r') ∧
      (s'.matchReg = 2 → s'.rIcmpType = r'.rIcmpType ∧ s'.rSrcHw = r'.rSrcHw) := by
  cases (exec_classify s).symm.trans hs
  cases (exec_classify r).symm.trans hr
  rw [← hinput]
  cases classifyFrame s.input with
  | none =>
    exact ⟨rfl, rfl, fun hkind => absurd hkind (by decide : matchBits .none ≠ 1),
      fun hkind => absurd hkind (by decide : matchBits .none ≠ 2)⟩
  | arp m =>
    exact ⟨rfl, rfl, fun _ => rfl, fun hkind => absurd hkind (by decide : matchBits .arp ≠ 2)⟩
  | icmp ty src =>
    exact ⟨rfl, rfl, fun hkind => absurd hkind (by decide : matchBits .icmp ≠ 1),
      fun _ => ⟨rfl, rfl⟩⟩

/-- Settles O46: the states of the two runs are the same updates with the same operands. -/
theorem commandReadsOnlyItsRow : Obligations.CommandReadsOnlyItsRow := by
  refine fun s r s' r' => ⟨fun htgt hs hr => ?magic, magics_reads_input_only,
    fun htgt hlhw hlip => ⟨fun hs hr => ?arpreq, fun hs hr => ?icmpreq⟩, fun hinput hs hr => ?cksum,
    classify_reads_input_only⟩
  case magic =>
    cases (exec_magic s).symm.trans hs
    cases (exec_magic r).symm.trans hr
    rw [htgt]
    exact setPacket_reads_frame_only ..
  case arpreq =>
    cases (exec_arpreq s).symm.trans hs
    cases (exec_arpreq r).symm.trans hr
    rw [htgt, hlhw, hlip]
    exact setPacket_reads_frame_only ..
  case icmpreq =>
    cases (exec_icmpreq s).symm.trans hs
    cases (exec_icmpreq r).symm.trans hr
    rw [htgt, hlhw, hlip]
    exact setPacket_reads_frame_only ..
  case cksum =>
    cases (exec_cksum s).symm.trans hs
    cases (exec_cksum r).symm.trans hr
    rw [hinput]
    exact ⟨rfl, rfl, rfl⟩

/-! ### Errors (R170, R171) -/

/-- R24: the codes a command leaves. -/
theorem statusBits_mem (c : StatusCode) : c ≠ .idle → statusBits c ∈ ([1, 2, 3, 4] : List Byte) := by
  cases c <;> decide

/-- R170: a command ends with `OK`, or it is `MAGICS`, which has written an error code and nothing else. -/
theorem exec_status {i : Instr} {s t : State} (h : exec i s = .next t) :
    t.status = 1 ∨
      i = .magics ∧ ∃ c, (c = .parseFailure ∨ c = .invalidAddressLength) ∧ t = s.setStatus c := by
  rcases exec_cases h with ⟨-, rfl⟩ | ⟨m, -, rfl⟩ | ⟨c, hi, hc, rfl⟩ | ⟨-, rfl⟩ | ⟨-, rfl⟩ |
    ⟨-, rfl⟩ | ⟨v, -, -, rfl⟩
  · exact .inl rfl
  · exact .inl rfl
  · exact .inr ⟨hi, c, hc, rfl⟩
  · exact .inl rfl
  · exact .inl rfl
  · exact .inl rfl
  · exact .inl rfl

/-- Settles O47: an illegal code writes 4; a command ends with `OK` or is a failed `MAGICS`. -/
theorem errorChangesStatusOnly : Obligations.ErrorChangesStatusOnly := by
  intro s c
  rcases runCommand_cases c s with ⟨hc, hillegal⟩ | ⟨i, rfl, hcommand⟩
  · exact ⟨_, hillegal, statusBits_mem .illegalCmd (by decide), fun _ => rfl, fun _ => .inr ⟨hc, rfl⟩⟩
  · obtain ⟨t, ht⟩ := everyCommandCompletes i s
    refine ⟨t, hcommand.trans ht, ?_⟩
    rcases exec_status ht with hok | ⟨rfl, c, rfl | rfl, rfl⟩
    · exact ⟨by simp [hok], fun hbad => absurd hok hbad, fun hbad => absurd hok hbad⟩
    · exact ⟨statusBits_mem .parseFailure (by decide), fun _ => rfl, fun _ => .inl ⟨rfl, .inl rfl⟩⟩
    · exact ⟨statusBits_mem .invalidAddressLength (by decide), fun _ => rfl,
        fun _ => .inl ⟨rfl, .inr rfl⟩⟩

/-! ### The writers of each piece of state (R20) -/

/-- R20, the column "written by", for the commands: the four pieces of state that only some commands write. -/
theorem exec_writers {i : Instr} {s t : State} (h : exec i s = .next t) :
    (t.tgt ≠ s.tgt → i = .magics) ∧
    (t.olen ≠ s.olen ∨ t.packet ≠ s.packet → i = .magic ∨ i = .magics ∨ i = .arpreq ∨ i = .icmpreq) ∧
    (t.cksum ≠ s.cksum ∨ t.ckfold ≠ s.ckfold → i = .cksum) ∧
    (t.matchReg ≠ s.matchReg ∨ arpRegisters t ≠ arpRegisters s ∨ t.rIcmpType ≠ s.rIcmpType ∨
      t.rSrcHw ≠ s.rSrcHw → i = .classify) := by
  rcases exec_cases h with ⟨rfl, rfl⟩ | ⟨m, rfl, rfl⟩ | ⟨c, rfl, -, rfl⟩ | ⟨rfl, rfl⟩ | ⟨rfl, rfl⟩ |
    ⟨rfl, rfl⟩ | ⟨_ | m | ⟨ty, src⟩, rfl, -, rfl⟩ <;> simp [arpRegisters, State.setReport]

/-- The same for a write of a byte to `CMD`; an illegal code writes none of them. -/
theorem runCommand_writers {c : Byte} {s t : State} (h : runCommand c s = .next t) :
    (t.tgt ≠ s.tgt → c = 0x02) ∧
    (t.olen ≠ s.olen ∨ t.packet ≠ s.packet → c = 0x01 ∨ c = 0x02 ∨ c = 0x03 ∨ c = 0x04) ∧
    (t.cksum ≠ s.cksum ∨ t.ckfold ≠ s.ckfold → c = 0x05) ∧
    (t.matchReg ≠ s.matchReg ∨ arpRegisters t ≠ arpRegisters s ∨ t.rIcmpType ≠ s.rIcmpType ∨
      t.rSrcHw ≠ s.rSrcHw → c = 0x06) := by
  rcases runCommand_cases c s with ⟨-, hillegal⟩ | ⟨i, rfl, hcommand⟩
  · cases hillegal.symm.trans h
    simp [arpRegisters]
  · obtain ⟨htgt, hpacket, hsums, hreport⟩ := exec_writers (hcommand.symm.trans h)
    refine ⟨fun hne => ?_, fun hne => ?_, fun hne => ?_, fun hne => ?_⟩
    · rw [htgt hne]
      rfl
    · rcases hpacket hne with rfl | rfl | rfl | rfl <;> simp [encode]
    · rw [hsums hne]
      rfl
    · rw [hreport hne]
      rfl

/-- Settles O48: a write to `CMD` by what its command writes; any other transaction changes at most the one
register or byte it writes. -/
theorem stateChangesOnlyByItsWriters : Obligations.StateChangesOnlyByItsWriters := by
  intro s t h hreset
  rcases step_cases h with ⟨-, rfl⟩ | ⟨x, rest, hp, hx⟩
  · simp
  have hnext (y : Transaction) : s.nextIs y ↔ x = y := by simp [State.nextIs, hp]
  simp only [hnext] at hreset ⊢
  rcases perform_cases hx with ⟨c, rfl, hc⟩ | ⟨a, rfl, rfl⟩ | ⟨a, rfl, rfl⟩ | ⟨a, rfl, rfl⟩ |
    ⟨n, rfl, -, rfl⟩ | ⟨a, b, rfl, -, rfl⟩ | rfl | ⟨r, rfl⟩ | ⟨r, rfl⟩ | ⟨rfl, -⟩
  · have hsame := runCommand_sameHostSide hc
    obtain ⟨htgt, hpacket, hsums, hreport⟩ := runCommand_writers hc
    refine ⟨fun _ => ⟨c, rfl⟩, fun hne => .inr ?_, fun hne => absurd hsame.lhw hne,
      fun hne => absurd hsame.lip hne, fun hne => absurd hsame.ilen hne, fun hne => ?_, fun hne => ?_,
      fun hne => ?_, fun a hne => absurd (hsame.inByte a) hne⟩
    · rw [htgt hne]
    · simpa using hpacket hne
    · rw [hsums hne]
    · rw [hreport hne]
  · simp [arpRegisters]
  · simp [arpRegisters]
  · simp [arpRegisters]
  · simp [arpRegisters]
  · refine ⟨by simp, by simp, by simp, by simp, by simp, by simp, by simp, by simp [arpRegisters],
      fun i hne => ?_⟩
    have hbyte := State.inByte_write (s.setPending rest) a i b
    split at hbyte
    · rename_i hi
      rw [hbyte, hi]
    · exact absurd hbyte hne
  · simp [arpRegisters]
  · simp [arpRegisters]
  · simp [arpRegisters]
  · exact absurd rfl hreset

end Sys2Proof.Machine
end

section
/-! PROOFS. The lines `INX` and `LOOPBACK` of a host program (spec/30_encoding.md R75): what their
transactions leave, run to the end (spec/20_memory.md R51, R60). -/

namespace Sys2Proof.Machine

/-! ### A run of writes to `IBUF` -/

/-- `buffer[i + k] <- bs[k]` for every byte of `bs`, in order. -/
def Memory.writeList (m : Memory) (i : Nat) : List Byte → Memory
  | [] => m
  | b :: r => (m.write i b).writeList (i + 1) r

/-- R51: what a read gives after these writes. -/
theorem Memory.read_writeList (m : Memory) (i : Nat) (bs : List Byte) (a : Nat) :
    (m.writeList i bs).read a = if a < i then m.read a else bs[a - i]?.or (m.read a) := by
  induction bs generalizing m i with
  | nil => simp [Memory.writeList]
  | cons b r ih =>
    rw [Memory.writeList, ih, Memory.read_write]
    rcases Nat.lt_trichotomy a i with hlt | rfl | hgt
    · rw [if_pos (by omega), if_neg (by omega), if_pos hlt]
    · simp
    · have hindex : a - i = a - (i + 1) + 1 := by omega
      rw [if_neg (by omega), if_neg (by omega), if_neg (by omega), hindex, List.getElem?_cons_succ]

/-- R51: `IBUF` after writes from offset 0 on: the bytes written, then every other byte as before. -/
theorem inByte_of_writeList {s t : State} {bs : List Byte} (hibuf : t.ibuf = s.ibuf.writeList 0 bs)
    (hresets : t.resets = s.resets) (a : Nat) : t.inByte a = bs[a]?.getD (s.inByte a) := by
  rw [State.inByte, State.inByte, hibuf, hresets, Memory.read_writeList, if_neg (Nat.not_lt_zero a),
    Nat.sub_zero]
  cases bs[a]? <;> rfl

theorem inByte_of_writeList_of_le {s t : State} {bs : List Byte}
    (hibuf : t.ibuf = s.ibuf.writeList 0 bs) (hresets : t.resets = s.resets) {a : Nat}
    (ha : bs.length ≤ a) : t.inByte a = s.inByte a := by
  rw [inByte_of_writeList hibuf hresets, List.getElem?_eq_none ha, Option.getD_none]

/-- R28: the input after writes from offset 0 on, where `ILEN` is their number. -/
theorem input_of_writeList {s t : State} {bs : List Byte} (hibuf : t.ibuf = s.ibuf.writeList 0 bs)
    (hresets : t.resets = s.resets) (hilen : t.ilen.toNat = bs.length) : t.input = bs := by
  apply List.ext_getElem
  · rw [State.input_length, hilen]
  · intro i _ hi
    simp [State.input, inByte_of_writeList hibuf hresets, hi]

/-- R60: a step takes the transaction placed first and performs it. -/
theorem step_setPending (s : State) (x : Transaction) (rest : List Transaction) :
    step (s.setPending (x :: rest)) = perform x (s.setPending rest) := step_cons rfl

/-- R60: the transactions of `writeBytes`, run to the end, write the bytes and nothing else. -/
theorem core_run_writeBytes {bs : List Byte} {i : Nat} (hfit : i + bs.length ≤ Config.params.ibufSize)
    (s : State) (rest : List Transaction) (n : Nat) :
    Host.Core.run core (bs.length + n) (s.setPending (writeBytes i bs ++ rest)) =
      Host.Core.run core n ((s.setIbuf (s.ibuf.writeList i bs)).setPending rest) := by
  induction bs generalizing i s with
  | nil => rw [List.length_nil, Nat.zero_add]; rfl
  | cons b r ih =>
    rw [List.length_cons] at hfit
    have hstep : step (s.setPending (writeBytes i (b :: r) ++ rest)) =
        .next ((s.setIbuf (s.ibuf.write i b)).setPending (writeBytes (i + 1) r ++ rest)) :=
      (step_setPending ..).trans (perform_writeIn (by omega) b _)
    rw [List.length_cons, Nat.add_right_comm, core_run_next hstep, ih (by omega)]
    rfl

/-- R26: the transaction `SET ILEN, n` takes a length that fits. -/
theorem step_setIlen {n : Word} (hn : n.toNat ≤ Config.params.ibufSize) (s : State)
    (rest : List Transaction) :
    step (s.setPending (setLine .ilen (.word n) :: rest)) = .next ((s.setIlen n).setPending rest) := by
  have hset : writeIlen n (s.setPending rest) = (s.setIlen n).setPending rest := if_pos hn
  rw [step_setPending, ← hset]
  rfl

/-! ### The line `INX` -/

/-- Settles O17: the bytes are written from offset 0 on, then `ILEN` takes their number. -/
theorem loadLineFillsTheInput : Obligations.LoadLineFillsTheInput := by
  intro s bytes _ hfit hlt
  have hilen : (BitVec.ofNat 16 bytes.length).toNat = bytes.length := by
    rw [BitVec.toNat_ofNat, Nat.mod_eq_of_lt hlt]
  have hline : s.withLine (.inBytes bytes) = some (s.setPending (loadBytes bytes ++ s.pending)) := by
    rw [State.withLine, expandLine, if_pos hlt]
  have hset := step_setIlen (hilen.trans_le hfit) (s.setIbuf (s.ibuf.writeList 0 bytes)) s.pending
  refine ⟨_, (s.setIbuf (s.ibuf.writeList 0 bytes)).setIlen (BitVec.ofNat 16 bytes.length), hline,
    ?_, rfl, input_of_writeList (s := s) rfl rfl hilen,
    fun _ => inByte_of_writeList_of_le (by rfl) (by rfl)⟩
  rw [loadBytes, List.append_assoc, core_run_writeBytes (by omega)]
  exact core_run_next hset

/-! ### The line `LOOPBACK` -/

/-- The transactions of `LOOPBACK` for the bytes it reads. -/
def copyTransactions (i j : Nat) : List Byte → List Transaction
  | [] => []
  | b :: r => .readOut i :: .writeIn j b :: copyTransactions (i + 1) (j + 1) r

/-- R75: where `OBUF` holds the bytes `bs` from `i` on, the line expands to their transactions. -/
theorem copyBytes_eq {s : State} {i n : Nat} {bs : List Byte}
    (h : (List.range' i n).map s.outByte = bs.map some) (j : Nat) :
    copyBytes s i j n = some (copyTransactions i j bs) := by
  induction n generalizing i j bs with
  | zero =>
    cases bs with
    | nil => rfl
    | cons b r => cases h
  | succ n ih =>
    cases bs with
    | nil => cases h
    | cons b r =>
      obtain ⟨hb, hr⟩ := List.cons.inj h
      rw [copyBytes, hb, ih hr]
      rfl

/-- R60: these transactions, run to the end, write the bytes read and record the readings. -/
theorem core_run_copyTransactions {bs : List Byte} {i j : Nat} {s : State}
    (h : (List.range' i bs.length).map s.outByte = bs.map some)
    (hi : i + bs.length ≤ Config.params.obufSize) (hj : j + bs.length ≤ Config.params.ibufSize)
    (rest : List Transaction) (n : Nat) :
    ∃ readings, Host.Core.run core (2 * bs.length + n)
        (s.setPending (copyTransactions i j bs ++ rest)) =
      Host.Core.run core n
        { s with pending := rest, ibuf := s.ibuf.writeList j bs, observed := readings } := by
  induction bs generalizing i j s with
  | nil => exact ⟨s.observed, by rw [List.length_nil, Nat.mul_zero, Nat.zero_add]; rfl⟩
  | cons b r ih =>
    rw [List.length_cons] at hi hj
    obtain ⟨hb, hr⟩ := List.cons.inj h
    have hread : step (s.setPending (copyTransactions i j (b :: r) ++ rest)) =
        .next ((s.observe (.outByte i b)).setPending
          (.writeIn j b :: (copyTransactions (i + 1) (j + 1) r ++ rest))) := by
      refine (step_setPending ..).trans ((perform_readOut (by omega) _).trans ?_)
      exact congrArg Host.Outcome.next (readOutByte_of_some hb)
    have hwrite : step ((s.observe (.outByte i b)).setPending
          (.writeIn j b :: (copyTransactions (i + 1) (j + 1) r ++ rest))) =
        .next (((s.observe (.outByte i b)).setIbuf (s.ibuf.write j b)).setPending
          (copyTransactions (i + 1) (j + 1) r ++ rest)) :=
      (step_setPending ..).trans (perform_writeIn (by omega) b _)
    obtain ⟨readings, hrun⟩ := ih (i := i + 1) (j := j + 1)
      (s := (s.observe (.outByte i b)).setIbuf (s.ibuf.write j b)) hr (by omega) (by omega)
    refine ⟨readings, ?_⟩
    have hfuel : 2 * (b :: r).length + n = 2 * r.length + n + 1 + 1 := by
      rw [List.length_cons]
      omega
    rw [hfuel, core_run_next hread, core_run_next hwrite, hrun]
    rfl

/-- R29: in a state that meets the invariant every byte of the packet is specified. -/
theorem State.Inv.exists_bytes {s : State} (hs : s.Inv) {i n : Nat} (h : i + n ≤ s.olen.toNat) :
    ∃ bs : List Byte, (List.range' i n).map s.outByte = bs.map some := by
  refine ⟨((List.range' i n).map s.outByte).map (·.getD 0), ?_⟩
  rw [List.map_map, List.map_map]
  refine List.map_congr_left fun a ha => ?_
  have hlt : a < s.olen.toNat := by
    rw [List.mem_range'_1] at ha
    omega
  obtain ⟨b, hb⟩ := Option.isSome_iff_exists.1 ((hs.obuf_packet a).2 hlt)
  simp [State.outByte, hlt, hb]

/-- R29: a part of the packet is the bytes of `OBUF` at its offsets. -/
theorem packet_slice (s : State) {lo hi : Nat} (h : hi ≤ s.olen.toNat) :
    (s.packet.drop lo).take (hi - lo) = (List.range' lo (hi - lo)).map s.outByte := by
  apply List.ext_getElem
  · simp [State.packet]
    omega
  · intro i _ _
    simp [State.packet]

/-- Settles O18: the packet's bytes are all specified, so the line expands; its transactions read and write
them one by one, and `ILEN` takes their number. -/
theorem loopbackLineCopiesThePacket : Obligations.LoopbackLineCopiesThePacket := by
  intro s lo hi hs _ hle holen hfit
  obtain ⟨bs, hbs⟩ := hs.exists_bytes (i := lo) (n := hi - lo) (by omega)
  have hlen : hi - lo = bs.length := by simpa using congrArg List.length hbs
  have hilen : (BitVec.ofNat 16 bs.length).toNat = bs.length := by
    obtain ⟨⟨-, hsize⟩, -⟩ := Config.params_wf
    rw [BitVec.toNat_ofNat, Nat.mod_eq_of_lt (by omega)]
  have hline : s.withLine (.loopback lo hi) = some (s.setPending
      (copyTransactions lo 0 bs ++ [setLine .ilen (.word (BitVec.ofNat 16 (hi - lo)))] ++ s.pending)) := by
    rw [State.withLine, expandLine, if_pos ⟨hle, holen, hfit⟩, copyBytes_eq hbs]
  rw [packet_slice s holen, hbs, hline]
  rw [hlen] at hbs hfit ⊢
  obtain ⟨readings, hrun⟩ := core_run_copyTransactions (i := lo) (j := 0) hbs
    (by have := hs.olen_le; omega) (by omega)
    (setLine .ilen (.word (BitVec.ofNat 16 bs.length)) :: s.pending) 1
  have hset := step_setIlen (hilen.trans_le hfit)
    { s with ibuf := s.ibuf.writeList 0 bs, observed := readings } s.pending
  refine ⟨_, { s with
      ibuf := s.ibuf.writeList 0 bs, ilen := BitVec.ofNat 16 bs.length, observed := readings },
    rfl, ?_, rfl, congrArg (List.map some) (input_of_writeList (s := s) rfl rfl hilen),
    fun _ => inByte_of_writeList_of_le (by rfl) (by rfl)⟩
  rw [List.append_assoc]
  exact hrun.trans (core_run_next hset)

end Sys2Proof.Machine
end
